-- ==== Sys2Proof/Word.lean ====
section
/-! DEFINITION. The word types of the CORE (00_scope.md rule R7): a byte, a 4-bit S-box entry, a word32 and a word64, all
unsigned. -/

namespace Sys2Proof

/-- A byte, 0..255 (R7). -/
abbrev Byte := BitVec 8

/-- A 4-bit value 0..15: an S-box entry or index (R31). -/
abbrev Nibble := BitVec 4

/-- An unsigned 32-bit value (R7). -/
abbrev Word32 := BitVec 32

/-- An unsigned 64-bit value (R7). -/
abbrev Word64 := BitVec 64

end Sys2Proof
end

