-- ==== Sys2Proof/Machine/Bytes.lean ====
section
/-! DEFINITION. Byte arrays and the packing primitives of 00_scope.md rule R8. Every conversion between bytes and words of the
model goes through this file, so that a byte order is decided once (20_memory.md rules R63 to R66, R70, R75). -/

namespace Sys2Proof.Machine

/-- The number a byte array stands for when element 0 is least significant: the sum of `2^(8i) * b[i]` (R8). -/
def leValue : List Byte → Nat
  | [] => 0
  | b :: bs => b.toNat + 256 * leValue bs

/-- The `n` bytes of the number `v`, least significant first (R8). -/
def leBytes : Nat → Nat → List Byte
  | 0, _ => []
  | n + 1, v => BitVec.ofNat 8 v :: leBytes n (v / 256)

/-- `LE32` of R8. -/
def le32 (b : List Byte) : Word32 := BitVec.ofNat 32 (leValue b)

/-- `LE64` of R8. -/
def le64 (b : List Byte) : Word64 := BitVec.ofNat 64 (leValue b)

/-- `BE32` of R8. -/
def be32 (b : List Byte) : Word32 := BitVec.ofNat 32 (leValue b.reverse)

/-- `BE64` of R8. -/
def be64 (b : List Byte) : Word64 := BitVec.ofNat 64 (leValue b.reverse)

/-- `ToLE32` of R8. -/
def toLe32 (v : Word32) : List Byte := leBytes 4 v.toNat

/-- `ToLE64` of R8. -/
def toLe64 (v : Word64) : List Byte := leBytes 8 v.toNat

/-- `ToBE32` of R8. -/
def toBe32 (v : Word32) : List Byte := (leBytes 4 v.toNat).reverse

/-- `ToBE64` of R8. -/
def toBe64 (v : Word64) : List Byte := (leBytes 8 v.toNat).reverse

/-- The sub-array `b[i..j]`, half-open (R7). -/
def slice (b : List Byte) (i j : Nat) : List Byte := (b.drop i).take (j - i)

/-- `b` filled with zero bytes up to `n` bytes: the Block Buffer's padding rule (R102). -/
def zeroFill (n : Nat) (b : List Byte) : List Byte := b ++ List.replicate (n - b.length) 0

/-- The byte array `b` as an array of exactly `n` bytes: the block value of a dispatch (R38). Every caller passes `n` bytes. -/
def fixed (n : Nat) (b : List Byte) : Vector Byte n := Vector.ofFn fun i => b.getD i.val 0

end Sys2Proof.Machine
end

