-- ==== Sys2Proof/Syntax.lean ====
section
/-! DEFINITION. The nine commands (30_encoding.md rules R80, R92; opcode_table.json): one constructor for each row, with the
payload bytes as its operand where the row has a payload. -/

namespace Sys2Proof

/-- The operation field `OP` (R82). -/
inductive Op where
  | init
  | absorb
  | finalize
deriving DecidableEq, Repr

/-- The engine field `ENG` (R83). -/
inductive Engine where
  | sha1
  | sha3
  | gost94
deriving DecidableEq, Repr

/-- A command: its row of the opcode table and its payload (R80, R86). -/
inductive Instr where
  /-- `INIT.SHA1` (R196). -/
  | initSha1
  /-- `INIT.SHA3` (R213). -/
  | initSha3
  /-- `INIT.GOST94` with the S-box and IV bytes (R168, R85). -/
  | initGost94 (p : List Byte)
  /-- `ABSORB.SHA1` with the message bytes (R197). -/
  | absorbSha1 (p : List Byte)
  /-- `ABSORB.SHA3` with the message bytes (R214). -/
  | absorbSha3 (p : List Byte)
  /-- `ABSORB.GOST94` with the message bytes (R169). -/
  | absorbGost94 (p : List Byte)
  /-- `FINALIZE.SHA1` (R198). -/
  | finalizeSha1
  /-- `FINALIZE.SHA3` (R215). -/
  | finalizeSha3
  /-- `FINALIZE.GOST94` (R170). -/
  | finalizeGost94
deriving DecidableEq, Repr

end Sys2Proof
end

