-- ==== Sys2Proof/Config.lean ====
section
/-! DEFINITION. What is fixed for the life of a CORE block (00_scope.md rule R6): the fixed sizes, and the OPEN parameters of the
SHA-3 controller as a type whose values are the legal configurations. Which configuration a block has is data that the state
carries and no step writes (assumption log 2, 3). -/

namespace Sys2Proof

/-- `SHA1_BLOCK`: bytes of one SHA-1 block (R6, R100). -/
def sha1Block : Nat := 64

/-- `GOST_BLOCK`: bytes of one GOST94 block (R6, R100). -/
def gostBlock : Nat := 32

/-- `LEN_MAX`: the largest payload of one command (R6, R80). -/
def lenMax : Nat := 65535

/-- The payload bytes of `INIT.GOST94`: 128 S-box bytes and 32 IV bytes (R84, R85). -/
def gostConfigLen : Nat := 160

/-- A leaf `KeccakF1600` of which nothing is known but R230's contract: a total, deterministic function from 25 word64 to 25 word64. It
has no body, so what is proved of a block that uses it holds for every such function (R6, R230; assumption log 3). -/
opaque Config.externalLeaf : Vector Word64 25 → Vector Word64 25

/-- The OPEN parameter `KeccakF1600` (R6): which leaf function a block has. -/
inductive KeccakLeaf where
  /-- The standard Keccak-f[1600], the intended value (45_leaf_keccak_f1600.md rule R232). -/
  | standard
  /-- Any function, uninterpreted (R230): `Config.externalLeaf`. -/
  | external
deriving DecidableEq, Repr

/-- A legal configuration of the SHA-3 controller (R6). Values outside these bounds are no configuration of this hardware
(93_implementation_defined.md U13), so the bounds are part of the type. -/
structure Sha3Params where
  /-- `SHA3_RATE`, the block size in bytes. -/
  rate : Nat
  /-- `SHA3_OUTLEN`, the digest size in bytes. -/
  outLen : Nat
  /-- `SHA3_DS`, the byte XOR-ed at the first padding position. -/
  ds : Byte
  /-- `KeccakF1600`, the leaf permutation. -/
  leaf : KeccakLeaf
  /-- `SHA3_RATE` is whole lanes and leaves at least one lane of capacity. -/
  rate_legal : rate % 8 = 0 ∧ 8 ≤ rate ∧ rate ≤ 192
  /-- A digest has at least one byte. -/
  outLen_legal : 1 ≤ outLen
deriving DecidableEq, Repr

end Sys2Proof
end

