-- ==== Sys2Proof/WellFormed.lean ====
section
/-! DEFINITION. Which commands have an encoding: the legal payload lengths of 30_encoding.md rule R84. The content of a payload is
never a matter of well-formedness: an S-box byte above 15 is refused by the command itself (R168, R244). -/

namespace Sys2Proof

/-- The payload length is legal for the command (R84). -/
def Instr.wellFormed : Instr → Bool
  | .initSha1 => true
  | .initSha3 => true
  | .initGost94 p => p.length == gostConfigLen
  | .absorbSha1 p => decide (p.length ≤ lenMax)
  | .absorbSha3 p => decide (p.length ≤ lenMax)
  | .absorbGost94 p => decide (p.length ≤ lenMax)
  | .finalizeSha1 => true
  | .finalizeSha3 => true
  | .finalizeGost94 => true

end Sys2Proof
end

