-- ==== Sys2Proof/Decode.lean ====
section
/-! DEFINITION. Decoding and encoding of commands (30_encoding.md rules R80 to R89, R92). Decoding is total on any bytes (R88): the
bytes hold a command, or an illegal header, rejected by name, or not yet a whole command. -/

namespace Sys2Proof

open Sys2Proof.Machine

/-- Why a header is illegal (R87). -/
inductive HeaderError where
  /-- `RSV != 0`. -/
  | reservedBits
  /-- `OP` is not 1, 2 or 3. -/
  | badOp
  /-- `ENG` is not 1, 2 or 3. -/
  | badEngine
  /-- `LEN` is not legal for the command (R84). -/
  | badLen
deriving DecidableEq, Repr

/-- The legal values of a header word's fields (R81). -/
structure Header where
  op : Op
  eng : Engine
  len : Nat
deriving DecidableEq, Repr

/-- What the bytes at the front of `CMD` hold. -/
inductive Decoded where
  /-- Fewer bytes than a header, or than the header's payload: not yet a command (R61, R120). -/
  | incomplete
  /-- An illegal header (R87). -/
  | illegal (why : HeaderError)
  /-- A whole command. -/
  | command (i : Instr)
deriving DecidableEq, Repr

/-- The codes of `OP` (R82). -/
def decodeOp (v : BitVec 4) : Option Op :=
  if v = 1 then some .init
  else if v = 2 then some .absorb
  else if v = 3 then some .finalize
  else none

/-- The codes of `ENG` (R83). -/
def decodeEngine (v : BitVec 4) : Option Engine :=
  if v = 1 then some .sha1
  else if v = 2 then some .sha3
  else if v = 3 then some .gost94
  else none

/-- The legal `LEN` of a command (R84). -/
def legalLen (op : Op) (eng : Engine) (len : Nat) : Bool :=
  match op, eng with
  | .absorb, _ => true
  | .init, .gost94 => len == gostConfigLen
  | _, _ => len == 0

/-- The fields of the header word (R81) and the legality test (R87). -/
def decodeHeader (w : Word32) : Except HeaderError Header :=
  if w.extractLsb' 16 8 ≠ 0 then .error .reservedBits
  else
    match decodeOp (w.extractLsb' 28 4), decodeEngine (w.extractLsb' 24 4) with
    | none, _ => .error .badOp
    | some _, none => .error .badEngine
    | some op, some eng =>
      let len := (w.extractLsb' 0 16).toNat
      if legalLen op eng len then .ok { op := op, eng := eng, len := len } else .error .badLen

/-- The command a legal header selects, with its payload (R92). -/
def Header.instr (h : Header) (p : List Byte) : Instr :=
  match h.op, h.eng with
  | .init, .sha1 => .initSha1
  | .init, .sha3 => .initSha3
  | .init, .gost94 => .initGost94 p
  | .absorb, .sha1 => .absorbSha1 p
  | .absorb, .sha3 => .absorbSha3 p
  | .absorb, .gost94 => .absorbGost94 p
  | .finalize, .sha1 => .finalizeSha1
  | .finalize, .sha3 => .finalizeSha3
  | .finalize, .gost94 => .finalizeGost94

/-- Decoding of the bytes of `CMD`, front first. The header is tested on its four bytes alone (R87), before the payload is looked
at; the command's length is known from its header (R89). -/
def decode (bs : List Byte) : Decoded :=
  if bs.length < 4 then .incomplete
  else
    match decodeHeader (le32 (bs.take 4)) with
    | .error why => .illegal why
    | .ok h =>
      if (bs.drop 4).length < h.len then .incomplete
      else .command (h.instr ((bs.drop 4).take h.len))

/-- The operation of a command (R92). -/
def Instr.op : Instr → Op
  | .initSha1 => .init
  | .initSha3 => .init
  | .initGost94 _ => .init
  | .absorbSha1 _ => .absorb
  | .absorbSha3 _ => .absorb
  | .absorbGost94 _ => .absorb
  | .finalizeSha1 => .finalize
  | .finalizeSha3 => .finalize
  | .finalizeGost94 => .finalize

/-- The engine a command addresses (R92). -/
def Instr.engine : Instr → Engine
  | .initSha1 => .sha1
  | .initSha3 => .sha3
  | .initGost94 _ => .gost94
  | .absorbSha1 _ => .sha1
  | .absorbSha3 _ => .sha3
  | .absorbGost94 _ => .gost94
  | .finalizeSha1 => .sha1
  | .finalizeSha3 => .sha3
  | .finalizeGost94 => .gost94

/-- The payload of a command (R92). -/
def Instr.payload : Instr → List Byte
  | .initSha1 => []
  | .initSha3 => []
  | .initGost94 p => p
  | .absorbSha1 p => p
  | .absorbSha3 p => p
  | .absorbGost94 p => p
  | .finalizeSha1 => []
  | .finalizeSha3 => []
  | .finalizeGost94 => []

/-- The bytes of `CMD` a command occupies, `4 + LEN` (R89). -/
def Instr.size (i : Instr) : Nat := 4 + i.payload.length

/-- The code of an operation (R82). -/
def Op.code : Op → BitVec 4
  | .init => 1
  | .absorb => 2
  | .finalize => 3

/-- The code of an engine (R83). -/
def Engine.code : Engine → BitVec 4
  | .sha1 => 1
  | .sha3 => 2
  | .gost94 => 3

/-- The header word: `OP`, `ENG`, `RSV = 0`, `LEN`, from the most significant bits down (R81). -/
def Instr.header (i : Instr) : Word32 :=
  i.op.code ++ i.engine.code ++ (0 : BitVec 8) ++ BitVec.ofNat 16 i.payload.length

/-- The bytes of a command on `CMD` in arrival order: the header little-endian (R66), then the payload (R80). -/
def encode (i : Instr) : List Byte := toLe32 i.header ++ i.payload

/-- A row of the opcode map (R92): a header `w` selects the row when `w & mask = value`. -/
structure OpcodeRow where
  mnemonic : String
  value : Word32
  mask : Word32
  op : Op
  eng : Engine
deriving DecidableEq, Repr

/-- The opcode map (R92). -/
def opcodeRows : List OpcodeRow :=
  [ { mnemonic := "INIT.SHA1", value := 0x11000000, mask := 0xFFFFFFFF, op := .init, eng := .sha1 },
    { mnemonic := "INIT.SHA3", value := 0x12000000, mask := 0xFFFFFFFF, op := .init, eng := .sha3 },
    { mnemonic := "INIT.GOST94", value := 0x130000A0, mask := 0xFFFFFFFF, op := .init, eng := .gost94 },
    { mnemonic := "ABSORB.SHA1", value := 0x21000000, mask := 0xFFFF0000, op := .absorb, eng := .sha1 },
    { mnemonic := "ABSORB.SHA3", value := 0x22000000, mask := 0xFFFF0000, op := .absorb, eng := .sha3 },
    { mnemonic := "ABSORB.GOST94", value := 0x23000000, mask := 0xFFFF0000, op := .absorb, eng := .gost94 },
    { mnemonic := "FINALIZE.SHA1", value := 0x31000000, mask := 0xFFFFFFFF, op := .finalize, eng := .sha1 },
    { mnemonic := "FINALIZE.SHA3", value := 0x32000000, mask := 0xFFFFFFFF, op := .finalize, eng := .sha3 },
    { mnemonic := "FINALIZE.GOST94", value := 0x33000000, mask := 0xFFFFFFFF, op := .finalize, eng := .gost94 } ]

/-- The header word `w` selects the row (R92). -/
def OpcodeRow.selects (r : OpcodeRow) (w : Word32) : Bool := w &&& r.mask == r.value

/-- The bytes of an instruction whose bits, numbered from bit 0 of the first byte, are `w`, `nbits` of them given and every later
bit 0: the `nbits / 8` bytes given (at least a header's four), then zero bytes up to the length the header announces (R89). -/
def tableBytes (nbits w : Nat) : List Byte :=
  let given := leBytes (max 4 (nbits / 8)) w
  zeroFill (4 + w % 65536) given

/-- The instruction the decoder reads from those bytes; none where it refuses them. -/
def decodeTableWord (nbits w : Nat) : Option Instr :=
  match decode (tableBytes nbits w) with
  | .command i => some i
  | .incomplete => none
  | .illegal _ => none

end Sys2Proof
end

