-- ==== Sys2Proof/Machine/Flags.lean ====
section
/-! DEFINITION. The CORE has no condition codes: no command sets a flag as a side effect (10_state.md rule R41). What the spec has
in their place is here: the carry of the 256-bit additions, a transient value inside one operation (42_gost94.md rule R163), and
the codes of the sticky FAULT register (60_exceptions.md rule R240), the only status a host reads. -/

namespace Sys2Proof.Machine

/-- Four word64 forming an unsigned 256-bit number, word 0 least significant (R28, R29). -/
structure Quad where
  w0 : Word64
  w1 : Word64
  w2 : Word64
  w3 : Word64
deriving DecidableEq, Repr

/-- `value(W)` of R163. -/
def Quad.value (q : Quad) : Nat :=
  q.w0.toNat + 2 ^ 64 * q.w1.toNat + 2 ^ 128 * q.w2.toNat + 2 ^ 192 * q.w3.toNat

/-- The four words all 0. -/
def Quad.zero : Quad := { w0 := 0, w1 := 0, w2 := 0, w3 := 0 }

/-- One word of `Add256` (R163): `t` is the exact sum of the two words and the carry in; the result is `t mod 2^64` and the
carry out `t div 2^64`. -/
def addWord (x y : Word64) (c : Nat) : Word64 × Nat :=
  let t := x.toNat + y.toNat + c
  (BitVec.ofNat 64 t, t / 2 ^ 64)

/-- `Add256(X, Y)` of R163: the carry runs from word 0 up to word 3; the second component is the carry out of word 3. -/
def add256 (x y : Quad) : Quad × Nat :=
  let r0 := addWord x.w0 y.w0 0
  let r1 := addWord x.w1 y.w1 r0.2
  let r2 := addWord x.w2 y.w2 r1.2
  let r3 := addWord x.w3 y.w3 r2.2
  ({ w0 := r0.1, w1 := r1.1, w2 := r2.1, w3 := r3.1 }, r3.2)

/-- The causes of a fault (R240). -/
inductive FaultCode where
  /-- The 256-bit bit counter would reach `2^256` (R241). -/
  | lenOverflow
  /-- The header word is not one of the nine commands (R242). -/
  | illegalCmd
  /-- A GOST94 message command before any INIT.GOST94 (R243). -/
  | unconfigured
  /-- An S-box byte of an INIT.GOST94 payload is above 0x0F (R244). -/
  | configMalformed
deriving DecidableEq, Repr

/-- The value FAULT takes (the code column of R240); 0 is no fault. -/
def FaultCode.code : FaultCode → Byte
  | .lenOverflow => 0x01
  | .illegalCmd => 0x02
  | .unconfigured => 0x03
  | .configMalformed => 0x04

end Sys2Proof.Machine
end

