-- ==== Sys2Proof/Machine/GostCore.lean ====
section
/-! DEFINITION. The GOST94 compression function (42_gost94.md rules R151 to R162), in the readings of 90_conflicts.md C1 to C6 and
C10. -/

namespace Sys2Proof.Machine

/-- A 32-byte array, index 0 first: the hash, a block, a key (R27). -/
abbrev Bytes32 := Vector Byte 32

/-- 8 substitution tables of 16 entries of 4 bits (R31). -/
abbrev SBox := Vector (Vector Nibble 16) 8

/-- 32 zero bytes. -/
def zero32 : Bytes32 := Vector.replicate 32 0

/-- Byte-wise XOR of two 32-byte arrays (R157). -/
def xor32 (x y : Bytes32) : Bytes32 := Vector.ofFn fun i => x[i] ^^^ y[i]

/-- Nibble `i` of `x`, nibble 0 the least significant, substituted through table `i` (R151). -/
def subNibble (sbox : SBox) (x : Word32) (i : Fin 8) : Nibble :=
  sbox[i][(x.extractLsb' (4 * i.val) 4).toFin]

/-- `Sub(x)` (R151): table `i` serves nibble `i`. -/
def gostSub (sbox : SBox) (x : Word32) : Word32 :=
  subNibble sbox x 7 ++ subNibble sbox x 6 ++ subNibble sbox x 5 ++ subNibble sbox x 4 ++
    subNibble sbox x 3 ++ subNibble sbox x 2 ++ subNibble sbox x 1 ++ subNibble sbox x 0

/-- `G(a, k)` (R152): the key is added before the substitution (90_conflicts.md C1). -/
def gostG (sbox : SBox) (a k : Word32) : Word32 := (gostSub sbox (a + k)).rotateLeft 11

/-- `KeyIndex(r)` (R154). -/
def gostKeyIndex (r : Nat) : Nat := if r < 24 then r % 8 else 31 - r

/-- Round key `K[i] = LE32(key[4i .. 4i+4])` (R153 step 1). -/
def gostRoundKey (key : Bytes32) (i : Nat) : Word32 := le32 (slice key.toList (4 * i) (4 * i + 4))

/-- The Feistel rounds for the round keys of the list, in order (R153 step 3): each round is `(a, b) <- (b ^ G(a, K), a)`. -/
def gostRounds (sbox : SBox) : List Word32 → Word32 → Word32 → Word32 × Word32
  | [], a, b => (a, b)
  | k :: ks, a, b => gostRounds sbox ks (b ^^^ gostG sbox a k) a

/-- `Encrypt(key, d)` (R153): the swap of round 31 is undone, so `b` is written first. -/
def gostEncrypt (sbox : SBox) (key : Bytes32) (d : List Byte) : List Byte :=
  let ks := (List.range 32).map fun r => gostRoundKey key (gostKeyIndex r)
  let ab := gostRounds sbox ks (le32 (slice d 0 4)) (le32 (slice d 4 8))
  toLe32 ab.2 ++ toLe32 ab.1

/-- Transform `A(x)` (R155). -/
def gostA (x : Bytes32) : Bytes32 :=
  Vector.ofFn fun i => if h : i.val < 24 then x[i.val + 8] else x[i.val - 24] ^^^ x[i.val - 16]

/-- Transform `P(y)` (R156): `out[i + 4k] = y[8i + k]`. -/
def gostP (y : Bytes32) : Bytes32 :=
  Vector.ofFn fun j => y[8 * (j.val % 4) + j.val / 4]

/-- The constant `C3` (R158); `C2` and `C4` are 32 zero bytes, whose XOR R157 leaves out. -/
def gostC3 : Bytes32 :=
  ⟨#[0x00, 0xff, 0x00, 0xff, 0x00, 0xff, 0x00, 0xff, 0xff, 0x00, 0xff, 0x00, 0xff, 0x00, 0xff, 0x00,
     0x00, 0xff, 0xff, 0x00, 0xff, 0x00, 0x00, 0xff, 0xff, 0x00, 0x00, 0x00, 0xff, 0xff, 0x00, 0xff], rfl⟩

/-- The four 32-byte keys `K1..K4` (R157). -/
structure GostKeys where
  k1 : Bytes32
  k2 : Bytes32
  k3 : Bytes32
  k4 : Bytes32
deriving DecidableEq, Repr

/-- `KeyGen(h, m)` (R157). -/
def gostKeyGen (h m : Bytes32) : GostKeys :=
  let u1 := h
  let v1 := m
  let u2 := gostA u1
  let v2 := gostA (gostA v1)
  let u3 := xor32 (gostA u2) gostC3
  let v3 := gostA (gostA v2)
  let u4 := gostA u3
  let v4 := gostA (gostA v3)
  { k1 := gostP (xor32 u1 v1)
    k2 := gostP (xor32 u2 v2)
    k3 := gostP (xor32 u3 v3)
    k4 := gostP (xor32 u4 v4) }

/-- `EncryptState(h, K1..K4)` (R159): `K(j+1)` encrypts bytes `8j .. 8j+7`. -/
def gostEncryptState (sbox : SBox) (h : Bytes32) (k : GostKeys) : Bytes32 :=
  fixed 32 (gostEncrypt sbox k.k1 (slice h.toList 0 8) ++ gostEncrypt sbox k.k2 (slice h.toList 8 16) ++
    gostEncrypt sbox k.k3 (slice h.toList 16 24) ++ gostEncrypt sbox k.k4 (slice h.toList 24 32))

/-- `Psi(x)` (R160): bytes 2 to 31 move to 0 to 29, and bytes 30 and 31 are XORs of the six windows. -/
def gostPsi (x : Bytes32) : Bytes32 :=
  ⟨⟨x.toList.drop 2 ++
      [x[0] ^^^ x[2] ^^^ x[4] ^^^ x[6] ^^^ x[24] ^^^ x[30], x[1] ^^^ x[3] ^^^ x[5] ^^^ x[7] ^^^ x[25] ^^^ x[31]]⟩, by simp⟩

/-- `Psi^n` (R161). -/
def gostPsiPow : Nat → Bytes32 → Bytes32
  | 0, x => x
  | n + 1, x => gostPsiPow n (gostPsi x)

/-- `Shuffle(h, m, S)` (R161): 12, 1 and 61 applications of `Psi`. -/
def gostShuffle (h m s : Bytes32) : Bytes32 :=
  gostPsiPow 61 (xor32 h (gostPsi (xor32 (gostPsiPow 12 s) m)))

/-- `GostF(h, m)`, the compression function (R162). -/
def gostF (sbox : SBox) (h m : Bytes32) : Bytes32 :=
  gostShuffle h m (gostEncryptState sbox h (gostKeyGen h m))

/-- The little-endian serialization of a 256-bit number (R65, R170). -/
def Quad.bytes (q : Quad) : List Byte := toLe64 q.w0 ++ toLe64 q.w1 ++ toLe64 q.w2 ++ toLe64 q.w3

/-- A 32-byte block as four little-endian word64 (R65, R164). -/
def quadOfBlock (blk : List Byte) : Quad :=
  { w0 := le64 (slice blk 0 8), w1 := le64 (slice blk 8 16), w2 := le64 (slice blk 16 24), w3 := le64 (slice blk 24 32) }

end Sys2Proof.Machine
end

