-- ==== Sys2Proof/Machine/KeccakCore.lean ====
section
/-! DEFINITION. The Keccak-f[1600] permutation (45_leaf_keccak_f1600.md rules R231 to R234): the intended value of
the OPEN leaf function `KeccakF1600` (00_scope.md rule R6), which the block's parameters select or replace (assumption log 3). -/

namespace Sys2Proof.Machine

/-- Twenty-five word64: lane `A[i]` is the lane at column `i mod 5` and row `i div 5` (R25, R231). -/
abbrev Lanes := Vector Word64 25

/-- The all-zero initial sponge state (R37, R213). -/
def zeroLanes : Lanes := Vector.replicate 25 0

/-- Lane `(x, y)` of the 5 by 5 array, indices modulo 5 (R231). -/
def Lanes.at (a : Lanes) (x y : Nat) : Word64 := a.toList.getD (x % 5 + 5 * (y % 5)) 0

/-- The 25 lanes given by a function of column and row (R231). -/
def lanesOf (f : Nat → Nat → Word64) : Lanes := Vector.ofFn fun i => f (i.val % 5) (i.val / 5)

/-- The round constant `RC[ir]` of round `ir` (R233), its hexadecimal digits in groups of four. There are 24 rounds; the
permutation asks for no other. -/
def keccakRC (ir : Nat) : Word64 :=
  match ir with
  | 0 => 0x0000_0000_0000_0001
  | 1 => 0x0000_0000_0000_8082
  | 2 => 0x8000_0000_0000_808A
  | 3 => 0x8000_0000_8000_8000
  | 4 => 0x0000_0000_0000_808B
  | 5 => 0x0000_0000_8000_0001
  | 6 => 0x8000_0000_8000_8081
  | 7 => 0x8000_0000_0000_8009
  | 8 => 0x0000_0000_0000_008A
  | 9 => 0x0000_0000_0000_0088
  | 10 => 0x0000_0000_8000_8009
  | 11 => 0x0000_0000_8000_000A
  | 12 => 0x0000_0000_8000_808B
  | 13 => 0x8000_0000_0000_008B
  | 14 => 0x8000_0000_0000_8089
  | 15 => 0x8000_0000_0000_8003
  | 16 => 0x8000_0000_0000_8002
  | 17 => 0x8000_0000_0000_0080
  | 18 => 0x0000_0000_0000_800A
  | 19 => 0x8000_0000_8000_000A
  | 20 => 0x8000_0000_8000_8081
  | 21 => 0x8000_0000_0000_8080
  | 22 => 0x0000_0000_8000_0001
  | 23 => 0x8000_0000_8000_8008
  | _ => 0

/-- The rotation offsets `RHO[x][y]`, one row for each `x` (R234). -/
def keccakRhoTable : List (List Nat) :=
  [ [0, 36, 3, 41, 18],
    [1, 44, 10, 45, 2],
    [62, 6, 43, 15, 61],
    [28, 55, 25, 21, 56],
    [27, 20, 39, 8, 14] ]

/-- `RHO[x][y]` (R234). -/
def keccakRho (x y : Nat) : Nat := (keccakRhoTable.getD x []).getD y 0

/-- Theta (R232). -/
def keccakTheta (a : Lanes) : Lanes :=
  let c := Vector.ofFn (n := 5) fun x => a.at x 0 ^^^ a.at x 1 ^^^ a.at x 2 ^^^ a.at x 3 ^^^ a.at x 4
  let col (x : Nat) : Word64 := c.toList.getD (x % 5) 0
  let d := Vector.ofFn (n := 5) fun x => col (x + 4) ^^^ (col (x + 1)).rotateLeft 1
  lanesOf fun x y => a.at x y ^^^ d.toList.getD x 0

/-- Rho and pi (R232): the lane at `(x, y)`, rotated, goes to column `y` and row `2x + 3y`, so column `x'` of row `y'` comes from
the `x` with `2x + 3x' = y'` modulo 5, which is `x' + 3y'`. -/
def keccakRhoPi (a : Lanes) : Lanes :=
  lanesOf fun x' y' => (a.at (x' + 3 * y') x').rotateLeft (keccakRho ((x' + 3 * y') % 5) x')

/-- Chi (R232). -/
def keccakChi (b : Lanes) : Lanes :=
  lanesOf fun x y => b.at x y ^^^ (~~~(b.at (x + 1) y) &&& b.at (x + 2) y)

/-- Iota with round constant `rc` (R232). -/
def keccakIota (rc : Word64) (a : Lanes) : Lanes := a.set 0 (a.at 0 0 ^^^ rc)

/-- One round (R232). -/
def keccakRound (rc : Word64) (a : Lanes) : Lanes :=
  keccakIota rc (keccakChi (keccakRhoPi (keccakTheta a)))

/-- `KeccakF1600(A)` (R232): the rounds `ir` in `0..24`, in order. -/
def keccakF1600 (a : Lanes) : Lanes :=
  (List.range 24).foldl (fun b ir => keccakRound (keccakRC ir) b) a

end Sys2Proof.Machine
end

