-- ==== Sys2Proof/Machine/Sha1Core.lean ====
section
/-! DEFINITION. The SHA-1 compression function (43_sha1.md rules R191 to R194). R199 lets a model take it as a leaf; here R194 is
the definition. -/

namespace Sys2Proof.Machine

/-- Five word32: the hash state `H[0..5]` (R21), and the working variables `a b c d e` of one compression (R24). -/
structure Sha1Words where
  a : Word32
  b : Word32
  c : Word32
  d : Word32
  e : Word32
deriving DecidableEq, Repr

/-- The SHA-1 initial value (R191). -/
def sha1Iv : Sha1Words :=
  { a := 0x67452301, b := 0xEFCDAB89, c := 0x98BADCFE, d := 0x10325476, e := 0xC3D2E1F0 }

/-- `n` further words of the schedule (R192), on the words so far with the newest first: entry `k` of the list is `W[t-1-k]`. -/
def sha1Extend : Nat → List Word32 → List Word32
  | 0, w => w
  | n + 1, w =>
    sha1Extend n ((w.getD 2 0 ^^^ w.getD 7 0 ^^^ w.getD 13 0 ^^^ w.getD 15 0).rotateLeft 1 :: w)

/-- `W[0..16]`: the block's words, read big-endian (R192, R63). -/
def sha1BlockWords (blk : List Byte) : List Word32 :=
  (List.range 16).map fun t => be32 (slice blk (4 * t) (4 * t + 4))

/-- `Schedule(blk)`, the 80 words `W[0..80]` (R192). -/
def sha1Schedule (blk : List Byte) : List Word32 :=
  (sha1Extend 64 (sha1BlockWords blk).reverse).reverse

/-- The round function `F(t, b, c, d)` (R193): choose, parity, majority, parity. -/
def sha1F (t : Nat) (b c d : Word32) : Word32 :=
  if t < 20 then (b &&& c) ||| (~~~b &&& d)
  else if t < 40 then b ^^^ c ^^^ d
  else if t < 60 then (b &&& c) ||| (b &&& d) ||| (c &&& d)
  else b ^^^ c ^^^ d

/-- The round constant `K(t)` (R193). -/
def sha1K (t : Nat) : Word32 :=
  if t < 20 then 0x5A827999
  else if t < 40 then 0x6ED9EBA1
  else if t < 60 then 0x8F1BBCDC
  else 0xCA62C1D6

/-- Round `t` on the working variables with the schedule word `w` (R194 step 3). -/
def sha1Round (t : Nat) (w : Word32) (s : Sha1Words) : Sha1Words :=
  { a := s.a.rotateLeft 5 + sha1F t s.b s.c s.d + s.e + sha1K t + w
    b := s.a
    c := s.b.rotateLeft 30
    d := s.c
    e := s.d }

/-- The rounds from round `t` on, one for each word of the list (R194 step 3). -/
def sha1Rounds : Nat → List Word32 → Sha1Words → Sha1Words
  | _, [], s => s
  | t, w :: ws, s => sha1Rounds (t + 1) ws (sha1Round t w s)

/-- The word-wise feed-forward addition (R194 step 4). -/
def Sha1Words.add (x y : Sha1Words) : Sha1Words :=
  { a := x.a + y.a, b := x.b + y.b, c := x.c + y.c, d := x.d + y.d, e := x.e + y.e }

/-- `Sha1Compress(h, blk)` (R194). -/
def sha1Compress (h : Sha1Words) (blk : List Byte) : Sha1Words :=
  h.add (sha1Rounds 0 (sha1Schedule blk) h)

/-- The five words big-endian, in order: the 20 digest bytes (R63, R198 step 5). -/
def Sha1Words.bytes (h : Sha1Words) : List Byte :=
  toBe32 h.a ++ toBe32 h.b ++ toBe32 h.c ++ toBe32 h.d ++ toBe32 h.e

end Sys2Proof.Machine
end

