-- ==== Sys2Proof/Machine/Contexts.lean ====
section
/-! DEFINITION. The contexts of the three engines (10_state.md rules R20 to R31) and their initial values (R37). A Block Buffer
`e.BUF` with its cursor `e.POS` is held as the list of its pending bytes `BUF[0..POS]`: `POS` is the list's length, and the bytes
from `POS` on, which have no specified value and which no rule reads (R42), have none here (assumption log 4). -/

namespace Sys2Proof.Machine

/-- The SHA-1 context (R21, R22, R23). -/
structure Sha1Ctx where
  /-- `SHA1.H[0..5]` (R21). -/
  h : Sha1Words
  /-- `SHA1.NBITS`, the number of message bits absorbed modulo `2^64` (R22). -/
  nbits : Word64
  /-- `SHA1.BUF[0..POS]`, the pending partial block (R23). -/
  buf : List Byte
deriving DecidableEq, Repr

/-- `SHA1.POS` (R23). -/
abbrev Sha1Ctx.pos (c : Sha1Ctx) : Nat := c.buf.length

/-- The SHA-3 context (R25, R26). -/
structure Sha3Ctx where
  /-- `SHA3.A[0..25]` (R25). -/
  a : Lanes
  /-- `SHA3.BUF[0..POS]`, the pending partial block (R26). -/
  buf : List Byte
deriving DecidableEq, Repr

/-- `SHA3.POS` (R26). -/
abbrev Sha3Ctx.pos (c : Sha3Ctx) : Nat := c.buf.length

/-- The GOST94 context (R27 to R31). -/
structure GostCtx where
  /-- `GOST.H[0..32]`, the running hash (R27). -/
  h : Bytes32
  /-- `GOST.N[0..4]`, the Length Accumulator (R28). -/
  n : Quad
  /-- `GOST.SIGMA[0..4]`, the Checksum Accumulator (R29). -/
  sigma : Quad
  /-- `GOST.BUF[0..POS]`, the pending partial block (R30). -/
  buf : List Byte
  /-- `GOST.SBOX[0..8][0..16]` (R31). -/
  sbox : SBox
  /-- `GOST.IV[0..32]` (R31). -/
  iv : Bytes32
  /-- `GOST.CFG`: SBOX and IV have been loaded (R31). -/
  cfg : Bool
deriving DecidableEq, Repr

/-- `GOST.POS` (R30). -/
abbrev GostCtx.pos (c : GostCtx) : Nat := c.buf.length

/-- The initial message state of SHA-1 (R37, R196). -/
def Sha1Ctx.initial : Sha1Ctx := { h := sha1Iv, nbits := 0, buf := [] }

/-- The initial message state of SHA-3 (R37, R213). -/
def Sha3Ctx.initial : Sha3Ctx := { a := zeroLanes, buf := [] }

/-- The GOST94 context after reset (R37, R260). `SBOX`, `IV` and `H` have no specified value until INIT.GOST94; the model gives
them zero (assumption log 1). -/
def GostCtx.unconfigured : GostCtx :=
  { h := zero32, n := Quad.zero, sigma := Quad.zero, buf := [], sbox := Vector.replicate 8 (Vector.replicate 16 0), iv := zero32,
    cfg := false }

end Sys2Proof.Machine
end

