-- ==== Sys2Proof/Machine/ParameterSets.lean ====
section
/-! DEFINITION. The standard parameter values of the spec: the SHA-3 triples (44_sha3_keccak.md rule R217) with the default of
00_scope.md rule R6, each with the standard leaf, and the two GOST94 S-box sets and the zero IV (42_gost94.md rule R172). -/

namespace Sys2Proof.Machine

/-- SHA3-256, the spec's default values (R6, R217). -/
def sha3_256 : Sha3Params :=
  { rate := 136, outLen := 32, ds := 0x06, leaf := .standard, rate_legal := by decide, outLen_legal := by decide }

/-- SHA3-224 (R217). -/
def sha3_224 : Sha3Params :=
  { rate := 144, outLen := 28, ds := 0x06, leaf := .standard, rate_legal := by decide, outLen_legal := by decide }

/-- SHA3-384 (R217). -/
def sha3_384 : Sha3Params :=
  { rate := 104, outLen := 48, ds := 0x06, leaf := .standard, rate_legal := by decide, outLen_legal := by decide }

/-- SHA3-512 (R217). -/
def sha3_512 : Sha3Params :=
  { rate := 72, outLen := 64, ds := 0x06, leaf := .standard, rate_legal := by decide, outLen_legal := by decide }

/-- The pre-standard Keccak padding of a triple (R217). -/
def keccakPadding (p : Sha3Params) : Sha3Params := { p with ds := 0x01 }

/-- SHAKE128 with `n` output bytes (R217). -/
def shake128 (n : Nat) (h : 1 ≤ n) : Sha3Params :=
  { rate := 168, outLen := n, ds := 0x1F, leaf := .standard, rate_legal := by decide, outLen_legal := h }

/-- SHAKE256 with `n` output bytes (R217). -/
def shake256 (n : Nat) (h : 1 ≤ n) : Sha3Params :=
  { rate := 136, outLen := n, ds := 0x1F, leaf := .standard, rate_legal := by decide, outLen_legal := h }

/-- One S-box table from its 16 entries. -/
def sboxRow (l : List Nat) : Vector Nibble 16 := Vector.ofFn fun k => BitVec.ofNat 4 (l.getD k.val 0)

/-- An S-box from its eight rows of entries. -/
def sboxOfRows (rows : List (List Nat)) : SBox := Vector.ofFn fun i => sboxRow (rows.getD i.val [])

/-- The rows of the set `TEST` (R172). -/
def testRows : List (List Nat) :=
  [ [4, 10, 9, 2, 13, 8, 0, 14, 6, 11, 1, 12, 7, 15, 5, 3],
    [14, 11, 4, 12, 6, 13, 15, 10, 2, 3, 8, 1, 0, 7, 5, 9],
    [5, 8, 1, 13, 10, 3, 4, 2, 14, 15, 12, 7, 6, 0, 9, 11],
    [7, 13, 10, 1, 0, 8, 9, 15, 14, 4, 6, 12, 11, 2, 5, 3],
    [6, 12, 7, 1, 5, 15, 13, 8, 4, 10, 9, 14, 0, 3, 11, 2],
    [4, 11, 10, 0, 7, 2, 1, 13, 3, 6, 8, 5, 9, 12, 15, 14],
    [13, 11, 4, 1, 3, 15, 5, 9, 0, 10, 14, 7, 6, 8, 2, 12],
    [1, 15, 13, 0, 5, 7, 10, 4, 9, 2, 3, 14, 6, 11, 8, 12] ]

/-- The rows of the set `CRYPTOPRO` (R172). -/
def cryptoProRows : List (List Nat) :=
  [ [10, 4, 5, 6, 8, 1, 3, 7, 13, 12, 14, 0, 9, 2, 11, 15],
    [5, 15, 4, 0, 2, 13, 11, 9, 1, 7, 6, 3, 12, 14, 10, 8],
    [7, 15, 12, 14, 9, 4, 1, 0, 3, 11, 5, 2, 6, 10, 8, 13],
    [4, 10, 7, 12, 0, 15, 2, 8, 14, 1, 6, 5, 13, 11, 9, 3],
    [7, 6, 4, 11, 9, 12, 2, 10, 1, 8, 0, 14, 15, 13, 3, 5],
    [7, 6, 2, 4, 13, 9, 15, 0, 10, 1, 5, 11, 8, 14, 12, 3],
    [13, 14, 4, 1, 7, 0, 5, 10, 3, 12, 8, 15, 6, 2, 9, 11],
    [1, 3, 10, 9, 5, 11, 4, 15, 8, 6, 7, 14, 13, 0, 2, 12] ]

/-- The S-box set `TEST` (R172). -/
def testSBox : SBox := sboxOfRows testRows

/-- The S-box set `CRYPTOPRO` (R172). -/
def cryptoProSBox : SBox := sboxOfRows cryptoProRows

/-- The 128 payload bytes of an S-box: rows in order, entries in index order, one byte each (R85). -/
def sboxPayload (rows : List (List Nat)) : List Byte := rows.flatMap fun row => row.map fun e => BitVec.ofNat 8 e

end Sys2Proof.Machine
end

