-- ==== Sys2Proof/Machine/State.lean ====
section
/-! DEFINITION. The architectural state (10_state.md rules R20 to R43) and its value after reset (R37, 70_reset_and_hazards.md rule
R260). The engine contexts are in Machine/Contexts.lean. The CORE has no memory, no program counter, no general registers and no
flags (R33, R40, R41, R60). -/

namespace Sys2Proof.Machine

/-- The state of the CORE (R20). `params` is the model's own field: the OPEN parameters of R6, which no step writes (assumption
log 2, 3). -/
structure State where
  /-- `SHA3_RATE`, `SHA3_OUTLEN`, `SHA3_DS`, `KeccakF1600` (R6). -/
  params : Sha3Params
  /-- The SHA-1 context. -/
  sha1 : Sha1Ctx
  /-- The SHA-3 context. -/
  sha3 : Sha3Ctx
  /-- The GOST94 context. -/
  gost : GostCtx
  /-- `FAULT`, 0 meaning no fault (R32). -/
  fault : Byte
  /-- `CMD`: the bytes supplied and not yet consumed, front first (R60, R61). -/
  cmd : List Byte
  /-- `CPOS`: how many bytes of `CMD` have been consumed (R33). -/
  cpos : Nat
  /-- `OUT`: the output stream since reset, oldest byte first (R34). -/
  out : List Byte
deriving DecidableEq, Repr

/-- Reasons for which a step could stop the machine. There are none: each of the four faults of R240 is a next state in which
`FAULT` holds its code (R245), and a halted or stuck CORE is a CORE whose state does not change (R245, R250; assumption log 5).
Safe: the model never goes on where the hardware stops. -/
inductive Fault where
deriving DecidableEq, Repr

/-- Reasons for which an instruction has no meaning. -/
inductive Refusal where
  /-- Raised by `exec` for an instruction whose meaning has not been written; no arm of this model raises it. Safe: nothing can be
  proved of an instruction that is refused. -/
  | notModelled (mnemonic : String)
deriving DecidableEq, Repr

/-- The outcome type of a step and of a meaning. -/
abbrev Result := Host.Outcome State Fault Refusal

/-- The state after reset (R37, R260), for a block with the default parameters (assumption log 2, 3). -/
def State.reset : State :=
  { params := sha3_256, sha1 := Sha1Ctx.initial, sha3 := Sha3Ctx.initial, gost := GostCtx.unconfigured, fault := 0, cmd := [],
    cpos := 0, out := [] }

end Sys2Proof.Machine
end

