-- ==== Sys2Proof/Machine/Ops.lean ====
section
/-! DEFINITION. The shared operations: the stream primitives (20_memory.md rules R61, R62), raising a fault (60_exceptions.md rule
R245) and the reset event, the only way back from one (R246, R260), and the Block Buffer (40_block_buffer.md). -/

namespace Sys2Proof.Machine

/-- `CmdRead(n)` (R61) where `n` bytes are there: the state after they have been taken off the front of `CMD`. Where they are not,
the decoder answers that the command is incomplete and nothing is read. -/
def State.consume (n : Nat) (s : State) : State := { s with cmd := s.cmd.drop n, cpos := s.cpos + n }

/-- `OutWrite(b)` (R62). -/
def outWrite (b : List Byte) (s : State) : State := { s with out := s.out ++ b }

/-- `raise Fault(code)` (R245): FAULT takes the code if it is 0, and from then on the CORE is halted. The contexts, which have no
specified value after a fault (R42), are left as they are (assumption log 6). -/
def raiseFault (code : FaultCode) (s : State) : State :=
  { s with fault := if s.fault = 0 then code.code else s.fault }

/-- The reset event (R260). There is no other return from a fault (R246). It does not change the parameters. -/
def resetEvent (s : State) : State := { State.reset with params := s.params }

/-- `BufAbsorb(e, data)` (R101) for an engine with block size `size`: `buf` holds `BUF[0..POS]`, `x` what the block callback works
on. A block is dispatched as soon as its last byte arrives, and `POS` is then 0. -/
def bufAbsorb {σ : Type} (size : Nat) (block : σ → List Byte → σ) : List Byte → σ → List Byte → List Byte × σ
  | buf, x, [] => (buf, x)
  | buf, x, d :: ds =>
    if (buf ++ [d]).length = size then bufAbsorb size block [] (block x (buf ++ [d])) ds
    else bufAbsorb size block (buf ++ [d]) x ds

/-- `BufFinalize(e)` (R102): a non-empty pending block is filled with zero bytes and dispatched once, with the number of message
bytes in it; an empty one dispatches nothing. Either way `POS` is 0 afterwards. -/
def bufFinalize {σ : Type} (size : Nat) (blockPartial : σ → List Byte → Nat → σ) (buf : List Byte) (x : σ) : List Byte × σ :=
  if buf.length = 0 then (buf, x) else ([], blockPartial x (zeroFill size buf) buf.length)

end Sys2Proof.Machine
end

