-- ==== Sys2Proof/Machine/Cycle.lean ====
section
/-! DEFINITION. The fetch of the command cycle (41_digest_commands.md rules R120, R121; 60_exceptions.md rules R242, R250), and the
host's side of the streams (20_memory.md rules R60, R61; 70_reset_and_hazards.md rule R260). -/

namespace Sys2Proof.Machine

/-- What the command cycle finds before it executes anything. -/
inductive Fetched where
  /-- `FAULT != 0`: no step (R120 step 1, R121). -/
  | halted
  /-- `CMD` does not hold a whole command yet: the CORE waits (R250). -/
  | stuck
  /-- An illegal header; the state is that with its four bytes consumed (R242). -/
  | illegal (s : State)
  /-- A command; the state is that with its `4 + LEN` bytes consumed (R89). -/
  | command (i : Instr) (s : State)
deriving DecidableEq, Repr

/-- Steps 1 to 4 of the command cycle (R120). Header and payload are read as one read of `4 + LEN` bytes, as R120 allows: a
partly arrived command is not yet a command (assumption log 7). -/
def fetch (s : State) : Fetched :=
  if s.fault = 0 then
    match decode s.cmd with
    | .incomplete => .stuck
    | .illegal _ => .illegal (s.consume 4)
    | .command i => .command i (s.consume i.size)
  else .halted

/-- The host supplies bytes at the end of `CMD` (R60, R61). -/
def hostSupply (b : List Byte) (s : State) : State := { s with cmd := s.cmd ++ b }

/-- The host reads FAULT; reading has no effect on the CORE (R32, R69). -/
def hostReadFault (s : State) : Byte := s.fault

/-- The host reads OUT; reading has no effect on the CORE (R34, R69). -/
def hostReadOut (s : State) : List Byte := s.out

/-- The state in which the bytes `b` are the next that the command cycle reads and the CORE is not halted. -/
def fetchNext (b : List Byte) (s : State) : State := { s with cmd := b ++ s.cmd, fault := 0 }

end Sys2Proof.Machine
end

