-- ==== Sys2Proof/Machine/Operands.lean ====
section
/-! DEFINITION. The operand forms. No command has a register operand or an address (30_encoding.md rule R81, 41_digest_commands.md
rule R132); the one payload with a layout is that of INIT.GOST94 (30_encoding.md rule R85). The other payloads are message bytes
in message order (R86). -/

namespace Sys2Proof.Machine

/-- Payload byte `p[j]`. -/
def payloadByte (p : List Byte) (j : Nat) : Byte := p.getD j 0

/-- Every S-box byte of the payload fits 4 bits (R168 step 1). -/
def sboxInRange (p : List Byte) : Bool := (p.take 128).all fun b => decide (b.toNat ≤ 0x0F)

/-- `SBOX[i][k] = p[16i + k]` (R85, R168 step 2). -/
def sboxOperand (p : List Byte) : SBox :=
  Vector.ofFn fun i => Vector.ofFn fun k => (payloadByte p (16 * i.val + k.val)).setWidth 4

/-- `IV[j] = p[128 + j]` (R85, R168 step 3). -/
def ivOperand (p : List Byte) : Bytes32 := Vector.ofFn fun j => payloadByte p (128 + j.val)

end Sys2Proof.Machine
end

