-- ==== Sys2Proof/Machine/Gost94.lean ====
section
/-! DEFINITION. The GOST94 accumulators, data block and commands (42_gost94.md rules R164 to R171). An operation that can raise a
fault answers the fault's code in place of a context: what the command has done by then is lost (R245; assumption log 6). -/

namespace Sys2Proof.Machine

/-- `SigmaAdd(blk)` (R164): the carry out of word 3 is discarded. -/
def sigmaAdd (sigma : Quad) (blk : List Byte) : Quad := (add256 sigma (quadOfBlock blk)).1

/-- `LenAdd(r)` (R165): a carry out of word 3 raises LEN_OVERFLOW, and `N` is then not updated. -/
def lenAdd (n : Quad) (r : Nat) : Except FaultCode Quad :=
  let z := add256 n { w0 := BitVec.ofNat 64 (8 * r), w1 := 0, w2 := 0, w3 := 0 }
  if z.2 = 1 then .error .lenOverflow else .ok z.1

/-- `GostDataBlock(blk, r)` (R166): length first, so that an overflow comes before the compression. -/
def GostCtx.dataBlock (c : GostCtx) (blk : List Byte) (r : Nat) : Except FaultCode GostCtx :=
  match lenAdd c.n r with
  | .error f => .error f
  | .ok n => .ok { c with n := n, h := gostF c.sbox c.h (fixed 32 blk), sigma := sigmaAdd c.sigma blk }

/-- The block callback for a block with `r` message bytes (R106): after a fault nothing more is done (R101). -/
def gostCallback (x : Except FaultCode GostCtx) (blk : List Byte) (r : Nat) : Except FaultCode GostCtx :=
  match x with
  | .error f => .error f
  | .ok c => c.dataBlock blk r

/-- The callback of a full block, `Block(GOST, blk)` (R106). -/
def gostFullBlock (x : Except FaultCode GostCtx) (blk : List Byte) : Except FaultCode GostCtx := gostCallback x blk 32

/-- The context with the buffer a Block Buffer operation left, unless a callback faulted. -/
def gostRebuffer (r : List Byte × Except FaultCode GostCtx) : Except FaultCode GostCtx :=
  match r.2 with
  | .error f => .error f
  | .ok c => .ok { c with buf := r.1 }

/-- `BufAbsorb(GOST, p)` (R101, R169 step 2). -/
def GostCtx.absorb (p : List Byte) (c : GostCtx) : Except FaultCode GostCtx :=
  gostRebuffer (bufAbsorb gostBlock gostFullBlock c.buf (.ok c) p)

/-- `BufFinalize(GOST)` (R102, R170 step 2). -/
def GostCtx.flush (c : GostCtx) : Except FaultCode GostCtx :=
  gostRebuffer (bufFinalize gostBlock gostCallback c.buf (.ok c))

/-- The digest of a flushed context: the length block and the checksum block are compressed, and only compressed (R170 steps 3
to 5, R171). -/
def GostCtx.digest (c : GostCtx) : Bytes32 :=
  let h1 := gostF c.sbox c.h (fixed 32 c.n.bytes)
  gostF c.sbox h1 (fixed 32 c.sigma.bytes)

/-- The initial message state of a configured context: `H = IV`, accumulators and cursor 0 (R37, R168 step 5, R170 step 6). -/
def GostCtx.restart (c : GostCtx) : GostCtx := { c with h := c.iv, n := Quad.zero, sigma := Quad.zero, buf := [] }

/-- The context after `INIT.GOST94` with a payload whose S-box is in range (R168 steps 2 to 5). -/
def GostCtx.configured (p : List Byte) : GostCtx :=
  { h := ivOperand p, n := Quad.zero, sigma := Quad.zero, buf := [], sbox := sboxOperand p, iv := ivOperand p, cfg := true }

/-- `INIT.GOST94` (R168). -/
def execInitGost94 (p : List Byte) (s : State) : Result :=
  if sboxInRange p then .next { s with gost := GostCtx.configured p }
  else .next (raiseFault .configMalformed s)

/-- `ABSORB.GOST94` (R169). -/
def execAbsorbGost94 (p : List Byte) (s : State) : Result :=
  if s.gost.cfg then
    match s.gost.absorb p with
    | .error f => .next (raiseFault f s)
    | .ok c => .next { s with gost := c }
  else .next (raiseFault .unconfigured s)

/-- `FINALIZE.GOST94` (R170). -/
def execFinalizeGost94 (s : State) : Result :=
  if s.gost.cfg then
    match s.gost.flush with
    | .error f => .next (raiseFault f s)
    | .ok c => .next (outWrite c.digest.toList { s with gost := c.restart })
  else .next (raiseFault .unconfigured s)

end Sys2Proof.Machine
end

