-- ==== Sys2Proof/Machine/Sha1.lean ====
section
/-! DEFINITION. The SHA-1 commands (43_sha1.md rules R195 to R198, R200). -/

namespace Sys2Proof.Machine

/-- `ABSORB.SHA1` on the context (R197): the bit counter wraps modulo `2^64` (R200). -/
def Sha1Ctx.absorb (p : List Byte) (c : Sha1Ctx) : Sha1Ctx :=
  let r := bufAbsorb sha1Block sha1Compress c.buf c.h p
  { h := r.2, nbits := c.nbits + BitVec.ofNat 64 (8 * p.length), buf := r.1 }

/-- Step 2 of `FINALIZE.SHA1`: the byte 0x80 is absorbed, without being counted (R198, R67). -/
def sha1Mark (buf : List Byte) (h : Sha1Words) : List Byte × Sha1Words :=
  bufAbsorb sha1Block sha1Compress buf h [0x80]

/-- Step 3 of `FINALIZE.SHA1`: with fewer than 8 bytes left for the length, the block is filled with zero bytes and dispatched. -/
def sha1MakeRoom (buf : List Byte) (h : Sha1Words) : List Byte × Sha1Words :=
  if buf.length > 56 then ([], sha1Compress h (zeroFill 64 buf)) else (buf, h)

/-- Step 4 of `FINALIZE.SHA1`: zero bytes up to byte 56, the bit length big-endian, and the last block. -/
def sha1LastBlock (nbits : Word64) (buf : List Byte) (h : Sha1Words) : Sha1Words :=
  sha1Compress h (zeroFill 56 buf ++ toBe64 nbits)

/-- The hash state after the padding of the pending message (R198 steps 1 to 4). -/
def Sha1Ctx.finalState (c : Sha1Ctx) : Sha1Words :=
  let r := sha1Mark c.buf c.h
  let q := sha1MakeRoom r.1 r.2
  sha1LastBlock c.nbits q.1 q.2

/-- `INIT.SHA1` (R196). -/
def execInitSha1 (s : State) : Result := .next { s with sha1 := Sha1Ctx.initial }

/-- `ABSORB.SHA1` (R197). -/
def execAbsorbSha1 (p : List Byte) (s : State) : Result := .next { s with sha1 := s.sha1.absorb p }

/-- `FINALIZE.SHA1` (R198): the digest is appended and the context is back in its initial message state. -/
def execFinalizeSha1 (s : State) : Result :=
  .next (outWrite s.sha1.finalState.bytes { s with sha1 := Sha1Ctx.initial })

end Sys2Proof.Machine
end

