-- ==== Sys2Proof/Machine/Sha3.lean ====
section
/-! DEFINITION. The SHA-3/Keccak sponge controller and its commands (44_sha3_keccak.md rules R211 to R216). The
permutation is the block's OPEN parameter `KeccakF1600` (00_scope.md rule R6, 45_leaf_keccak_f1600.md rule R230; assumption log
3). -/

namespace Sys2Proof.Machine

/-- The function `KeccakF1600` of a block with these parameters (R6, R230). -/
def keccakLeaf (params : Sha3Params) : Lanes → Lanes :=
  match params.leaf with
  | .standard => keccakF1600
  | .external => Config.externalLeaf

/-- The XOR fold of a block of `rate` bytes into the rate lanes (R212 step 1, R64). -/
def keccakFold (rate : Nat) (a : Lanes) (blk : List Byte) : Lanes :=
  Vector.ofFn fun i => if i.val < rate / 8 then a[i] ^^^ le64 (slice blk (8 * i.val) (8 * i.val + 8)) else a[i]

/-- `KeccakAbsorbBlock(A, blk)` (R212): the fold, then exactly one permutation. -/
def keccakAbsorbBlock (leaf : Lanes → Lanes) (rate : Nat) (a : Lanes) (blk : List Byte) : Lanes :=
  leaf (keccakFold rate a blk)

/-- The 200 bytes of the state (R211). -/
def Lanes.bytes (a : Lanes) : List Byte := a.toList.flatMap toLe64

/-- The loop of `Squeeze` (R216) with `need` bytes still wanted; each turn gives `rate` of them, so `fuel = need` turns suffice. -/
def squeezeLoop (leaf : Lanes → Lanes) (rate : Nat) : Nat → Nat → Lanes → List Byte
  | 0, _, _ => []
  | fuel + 1, need, a =>
    let z := a.bytes.take rate
    if need ≤ rate then z.take need else z ++ squeezeLoop leaf rate fuel (need - rate) (leaf a)

/-- `Squeeze(D)` (R216). -/
def squeeze (leaf : Lanes → Lanes) (rate d : Nat) (a : Lanes) : List Byte := squeezeLoop leaf rate d d a

/-- The padding block of `FINALIZE.SHA3` (R215 steps 1 to 3): zero fill, the domain byte XOR-ed at `POS`, 0x80 at the last byte. -/
def sha3PadBlock (params : Sha3Params) (buf : List Byte) : List Byte :=
  ((zeroFill params.rate buf).modify buf.length (· ^^^ params.ds)).modify (params.rate - 1) (· ^^^ 0x80)

/-- `ABSORB.SHA3` on the context (R214). -/
def Sha3Ctx.absorb (params : Sha3Params) (p : List Byte) (c : Sha3Ctx) : Sha3Ctx :=
  let r := bufAbsorb params.rate (keccakAbsorbBlock (keccakLeaf params) params.rate) c.buf c.a p
  { a := r.2, buf := r.1 }

/-- The sponge state after the padding block (R215 step 4). -/
def Sha3Ctx.finalState (params : Sha3Params) (c : Sha3Ctx) : Lanes :=
  keccakAbsorbBlock (keccakLeaf params) params.rate c.a (sha3PadBlock params c.buf)

/-- `INIT.SHA3` (R213). -/
def execInitSha3 (s : State) : Result := .next { s with sha3 := Sha3Ctx.initial }

/-- `ABSORB.SHA3` (R214). -/
def execAbsorbSha3 (p : List Byte) (s : State) : Result :=
  .next { s with sha3 := s.sha3.absorb s.params p }

/-- `FINALIZE.SHA3` (R215): the digest is appended and the context is back in its initial message state. -/
def execFinalizeSha3 (s : State) : Result :=
  .next (outWrite (squeeze (keccakLeaf s.params) s.params.rate s.params.outLen (s.sha3.finalState s.params))
    { s with sha3 := Sha3Ctx.initial })

end Sys2Proof.Machine
end

