-- ==== Sys2Proof/Machine/Dispatch.lean ====
section
/-! DEFINITION. The dispatch of a command to its meaning (41_digest_commands.md rule R120 step 5, 30_encoding.md rule R92). -/

namespace Sys2Proof.Machine

def exec (i : Instr) (s : State) : Host.Outcome State Fault Refusal :=
  match i with
  | .initSha1 => Sys2Proof.Machine.execInitSha1 s
  | .initSha3 => Sys2Proof.Machine.execInitSha3 s
  | .initGost94 p => Sys2Proof.Machine.execInitGost94 p s
  | .absorbSha1 p => Sys2Proof.Machine.execAbsorbSha1 p s
  | .absorbSha3 p => Sys2Proof.Machine.execAbsorbSha3 p s
  | .absorbGost94 p => Sys2Proof.Machine.execAbsorbGost94 p s
  | .finalizeSha1 => Sys2Proof.Machine.execFinalizeSha1 s
  | .finalizeSha3 => Sys2Proof.Machine.execFinalizeSha3 s
  | .finalizeGost94 => Sys2Proof.Machine.execFinalizeGost94 s

end Sys2Proof.Machine
end

