-- ==== Sys2Proof/Machine/Step.lean ====
section
/-! DEFINITION. One step of the CORE (41_digest_commands.md rule R120), and the placing of one instruction where it is fetched. -/

namespace Sys2Proof.Machine

/-- One step (R120). A halted CORE takes no step and a stuck one waits: in both the state stays as it is (R121, R245, R250;
assumption log 5). -/
def step (s : State) : Host.Outcome State Fault Refusal :=
  match fetch s with
  | .halted => .next s
  | .stuck => .next s
  | .illegal s' => .next (raiseFault .illegalCmd s')
  | .command i s' => exec i s'

/-- `s` with an instruction, given by its table bits, as the next bytes of `CMD`, and not halted (assumption log 8). -/
def State.withFetchWord (s : State) (nbits w : Nat) : State := fetchNext (tableBytes nbits w) s

end Sys2Proof.Machine
end

