-- ==== Sys2Proof/Machine/Assembler.lean ====
section
/-! DEFINITION. The textual notation and the pseudo-instructions (30_encoding.md rules R90, R91). -/

namespace Sys2Proof.Machine

/-- One line of the notation with its operands as bytes: the commands, and the pseudo-instructions of R91. -/
inductive AsmLine where
  | initSha1
  | initSha3
  | initGost94 (sbox iv : List Byte)
  | absorb (e : Engine) (data : List Byte)
  | finalize (e : Engine)
  | digestSha1 (data : List Byte)
  | digestSha3 (data : List Byte)
  | digestGost94 (sbox iv data : List Byte)
  | nop
deriving DecidableEq, Repr

/-- Consecutive pieces of `data`, each but the last of `LEN_MAX` bytes (R91); `fuel` bounds their number. -/
def pieces : Nat → List Byte → List (List Byte)
  | 0, data => [data]
  | fuel + 1, data =>
    if data.length ≤ lenMax then [data] else data.take lenMax :: pieces fuel (data.drop lenMax)

/-- The ABSORB command of an engine. -/
def absorbInstr (e : Engine) (data : List Byte) : Instr := Header.instr { op := .absorb, eng := e, len := data.length } data

/-- `ABSORB.<ENG> <data>` with data of any length (R91). -/
def absorbLong (e : Engine) (data : List Byte) : List Instr := (pieces data.length data).map (absorbInstr e)

/-- The commands a line stands for (R91). -/
def assemble : AsmLine → List Instr
  | .initSha1 => [.initSha1]
  | .initSha3 => [.initSha3]
  | .initGost94 sbox iv => [.initGost94 (sbox ++ iv)]
  | .absorb e data => absorbLong e data
  | .finalize .sha1 => [.finalizeSha1]
  | .finalize .sha3 => [.finalizeSha3]
  | .finalize .gost94 => [.finalizeGost94]
  | .digestSha1 data => [.initSha1] ++ absorbLong .sha1 data ++ [.finalizeSha1]
  | .digestSha3 data => [.initSha3] ++ absorbLong .sha3 data ++ [.finalizeSha3]
  | .digestGost94 sbox iv data => [.initGost94 (sbox ++ iv)] ++ absorbLong .gost94 data ++ [.finalizeGost94]
  | .nop => [.absorbSha1 []]

/-- The tokens of a line: separated by blanks outside quotes, ended by `;` outside quotes (R90). `cur` is the token so far. -/
def asmTokens : Bool → List Char → List Char → List (List Char)
  | _, cur, [] => if cur.isEmpty then [] else [cur]
  | true, cur, c :: cs => asmTokens (c != '"') (cur ++ [c]) cs
  | false, cur, c :: cs =>
    if c = ';' then (if cur.isEmpty then [] else [cur])
    else if c = ' ' then (if cur.isEmpty then [] else [cur]) ++ asmTokens false [] cs
    else asmTokens (c == '"') (cur ++ [c]) cs

/-- The value of a hexadecimal digit. -/
def hexDigit (c : Char) : Option Nat :=
  let n := c.toNat
  if 48 ≤ n ∧ n ≤ 57 then some (n - 48)
  else if 97 ≤ n ∧ n ≤ 102 then some (n - 87)
  else if 65 ≤ n ∧ n ≤ 70 then some (n - 55)
  else none

/-- Bytes from hexadecimal digits, two digits per byte (R90). -/
def hexBytes : List Char → Option (List Byte)
  | [] => some []
  | [_] => none
  | a :: b :: cs =>
    match hexDigit a, hexDigit b, hexBytes cs with
    | some x, some y, some r => some (BitVec.ofNat 8 (16 * x + y) :: r)
    | _, _, _ => none

/-- The rest of `t` after the text `pre`, if it begins with it. -/
def stripText (pre : String) (t : List Char) : Option (List Char) :=
  if pre.toList.isPrefixOf t then some (t.drop pre.toList.length) else none

/-- `<data>` (R90): a quoted string's ASCII bytes, or `hex:` and digits. -/
def asmData (t : List Char) : Option (List Byte) :=
  match stripText "hex:" t with
  | some ds => hexBytes ds
  | none =>
    match t with
    | '"' :: cs => if cs.getLast? = some '"' then some (cs.dropLast.map fun c => BitVec.ofNat 8 c.toNat) else none
    | _ => none

/-- `sbox=<S>` (R90): a named set or 256 digits. -/
def asmSBox (t : List Char) : Option (List Byte) :=
  match stripText "sbox=" t with
  | none => none
  | some v =>
    if v = "TEST".toList then some (sboxPayload testRows)
    else if v = "CRYPTOPRO".toList then some (sboxPayload cryptoProRows)
    else if v.length = 256 then hexBytes v
    else none

/-- `iv=<V>` (R90): `ZERO` or 64 digits. -/
def asmIv (t : List Char) : Option (List Byte) :=
  match stripText "iv=" t with
  | none => none
  | some v =>
    if v = "ZERO".toList then some (List.replicate 32 0)
    else if v.length = 64 then hexBytes v
    else none

/-- The optional `<data>` operand: empty when it is left out (R90). -/
def asmOptData : List (List Char) → Option (List Byte)
  | [] => some []
  | [t] => asmData t
  | _ => none

/-- The engine a mnemonic ends with. -/
def asmEngine (t : List Char) : Option Engine :=
  if t = "SHA1".toList then some .sha1
  else if t = "SHA3".toList then some .sha3
  else if t = "GOST94".toList then some .gost94
  else none

/-- The operands of a line with the mnemonic `pre` and engine `e` (R90, R91). -/
def asmOperands (pre : String) (e : Engine) (ops : List (List Char)) : Option AsmLine :=
  if pre = "INIT." then
    match e, ops with
    | .sha1, [] => some .initSha1
    | .sha3, [] => some .initSha3
    | .gost94, [sb, iv] =>
      match asmSBox sb, asmIv iv with
      | some x, some y => some (.initGost94 x y)
      | _, _ => none
    | _, _ => none
  else if pre = "ABSORB." then (asmOptData ops).map (.absorb e)
  else if pre = "FINALIZE." then (if ops.isEmpty then some (.finalize e) else none)
  else
    match e, ops with
    | .sha1, ops => (asmOptData ops).map .digestSha1
    | .sha3, ops => (asmOptData ops).map .digestSha3
    | .gost94, sb :: iv :: rest =>
      match asmSBox sb, asmIv iv, asmOptData rest with
      | some x, some y, some d => some (.digestGost94 x y d)
      | _, _, _ => none
    | _, _ => none

/-- A line with at least a mnemonic, which is case-insensitive (R90). -/
def asmMnemonic (m : List Char) (ops : List (List Char)) : Option AsmLine :=
  let m := m.map Char.toUpper
  if m = "NOP".toList then (if ops.isEmpty then some .nop else none)
  else
    ["INIT.", "ABSORB.", "FINALIZE.", "DIGEST."].findSome? fun pre =>
      match stripText pre m with
      | none => none
      | some rest => (asmEngine rest).bind fun e => asmOperands pre e ops

/-- The commands of one line of text: none if it is not a line of R90; an empty or comment line has none of them. -/
def assembleLine (line : String) : Option (List Instr) :=
  match asmTokens false [] line.toList with
  | [] => some []
  | m :: ops => (asmMnemonic m ops).map assemble

end Sys2Proof.Machine
end

