-- ==== Sys2Proof/Machine/Message.lean ====
section
/-! DEFINITION. The digest of a whole message, as the prose of the FINALIZE rules describes it, without a buffer, a cursor or a
chunking: the message is padded, cut into blocks and compressed block by block. Nothing in the machine uses this file; claims
compare the machine with it (41_digest_commands.md rules R123, R125, R130). -/

namespace Sys2Proof.Machine

/-- The whole `n`-byte blocks at the front of `m`, in order (R103). -/
def blocksOf (n : Nat) (m : List Byte) : List (List Byte) :=
  (List.range (m.length / n)).map fun i => slice m (n * i) (n * i + n)

/-- What is left of `m` after its whole `n`-byte blocks (R103). -/
def residue (n : Nat) (m : List Byte) : List Byte := m.drop (n * (m.length / n))

/-- SHA-1 padding of `m` with the 64-bit length field `len`: 0x80, the least number of zero bytes that makes the length 56 modulo
64, and the field big-endian (the sentence after the steps of R198). -/
def sha1Pad (m : List Byte) (len : Word64) : List Byte :=
  m ++ [0x80] ++ List.replicate ((119 - m.length % 64) % 64) 0 ++ toBe64 len

/-- The SHA-1 digest of the message `m` (R198, R200). -/
def sha1Digest (m : List Byte) : List Byte :=
  ((blocksOf 64 (sha1Pad m (BitVec.ofNat 64 (8 * m.length)))).foldl sha1Compress sha1Iv).bytes

/-- SHA-3 padding of `m` (R215): at least one byte; the first padding byte carries the domain bits, the last one 0x80, and a lone
padding byte both. -/
def sha3Pad (params : Sha3Params) (m : List Byte) : List Byte :=
  let q := params.rate - m.length % params.rate
  if q = 1 then m ++ [params.ds ^^^ 0x80]
  else m ++ [params.ds] ++ List.replicate (q - 2) 0 ++ [0x80]

/-- The SHA-3 digest of the message `m`, with the leaf of the parameters (R215, R216). -/
def sha3Digest (params : Sha3Params) (m : List Byte) : List Byte :=
  squeeze (keccakLeaf params) params.rate params.outLen
    ((blocksOf params.rate (sha3Pad params m)).foldl (keccakAbsorbBlock (keccakLeaf params) params.rate) zeroLanes)

/-- The data blocks of a GOST94 message: its whole blocks, then the residue filled with zero bytes if there is one (R103). -/
def gostDataBlocks (m : List Byte) : List (List Byte) :=
  blocksOf 32 m ++ (if m.length % 32 = 0 then [] else [zeroFill 32 (residue 32 m)])

/-- The compression of data blocks, in order (R162). -/
def gostFold (sbox : SBox) (h : Bytes32) (blks : List (List Byte)) : Bytes32 :=
  blks.foldl (fun x blk => gostF sbox x (fixed 32 blk)) h

/-- The sum of the blocks as 256-bit little-endian numbers (R29). -/
def blockSum (blks : List (List Byte)) : Nat := (blks.map leValue).sum

/-- The GOST94 digest of the message `m`: the data blocks are compressed, then the message's bit length and the sum of the data
blocks modulo `2^256`, each as 32 little-endian bytes (R170). -/
def gostDigest (sbox : SBox) (iv : Bytes32) (m : List Byte) : List Byte :=
  (gostFold sbox iv
    (gostDataBlocks m ++ [leBytes 32 (8 * m.length), leBytes 32 (blockSum (gostDataBlocks m) % 2 ^ 256)])).toList

end Sys2Proof.Machine
end

