-- ==== Sys2Proof/Safety.lean ====
section
/-! DEFINITION. The terms the claims are stated in: runs of commands, what a legal state is, and what two states share. -/

namespace Sys2Proof.Machine

/-- The commands of a list executed in order (20_memory.md rule R71). -/
def execAll : List Instr → State → Result
  | [], s => .next s
  | i :: is, s =>
    match exec i s with
    | .next t => execAll is t
    | .fault f => .fault f
    | .refused r => .refused r

/-- `0 <= e.POS < B(e)` for each engine (10_state.md rule R35). -/
def State.CursorsLegal (s : State) : Prop :=
  s.sha1.pos < 64 ∧ s.sha3.pos < s.params.rate ∧ s.gost.pos < 32

/-- The length counters agree with the cursors: SHA-1 counts the bits of whole blocks and of the pending bytes (R22, R23), GOST94
the bits of whole blocks only (R28, 92_eei_decisions.md D17). -/
def State.CountersLegal (s : State) : Prop :=
  s.sha1.nbits.toNat % 512 = 8 * s.sha1.pos ∧ s.gost.n.value % 256 = 0

/-- Before INIT.GOST94 the GOST94 context has absorbed nothing (R37, R243). -/
def State.UnconfiguredIdle (s : State) : Prop :=
  s.gost.cfg = false → s.gost.n.value = 0 ∧ s.gost.sigma.value = 0 ∧ s.gost.buf = []

/-- A legal state: FAULT holds one of the codes of R240, and while there is no fault the contexts are as the rules keep them. After
a fault the contexts have no specified value (R42). -/
def State.Inv (s : State) : Prop :=
  s.fault.toNat ≤ 4 ∧ (s.fault = 0 → s.CursorsLegal ∧ s.CountersLegal ∧ s.UnconfiguredIdle)

/-- The two states have the same context of the engine; for SHA-3 the parameters of the block belong to it. -/
def sameContext : Engine → State → State → Prop
  | .sha1, s, t => s.sha1 = t.sha1
  | .sha3, s, t => s.sha3 = t.sha3 ∧ s.params = t.params
  | .gost94, s, t => s.gost = t.gost

/-- `s` with other values of what R42 leaves unspecified before INIT.GOST94: `GOST.H`, `GOST.IV` and `GOST.SBOX`. -/
def State.withUnspecified (s : State) (h iv : Bytes32) (sbox : SBox) : State :=
  { s with gost := { s.gost with h := h, iv := iv, sbox := sbox } }

/-- What the host sees of the CORE: `OUT`, `FAULT`, and how far `CMD` has been consumed (R60, R261). -/
def State.visible (s : State) : List Byte × Byte × List Byte × Nat := (s.out, s.fault, s.cmd, s.cpos)

end Sys2Proof.Machine
end

