-- ==== Sys2Proof/Certificates/Slice0/Obligations.lean ====
section
/-! DEFINITION. The statements for the provers, from the spec's numbered rules. Each docstring names the rules; where a statement
rests on a choice of the model it names the assumption log's entry. -/

open Sys2Proof Sys2Proof.Machine

/-! ### Encoding and decoding -/

/-- R66, R80, R81, R84, R89, R92: a well-formed command's bytes, with anything behind them, decode to the command, every payload
byte included. -/
def Obligations.EncodedCommandDecodesToItself : Prop :=
  ∀ (i : Instr) (rest : List Byte), i.wellFormed = true → decode (encode i ++ rest) = .command i

/-- R84, R89: what decodes is well formed, and the bytes it was decoded from are its encoding, `4 + LEN` of them. -/
def Obligations.DecodedBytesAreTheEncoding : Prop :=
  ∀ (bs : List Byte) (i : Instr), decode bs = .command i →
    i.wellFormed = true ∧ i.size ≤ bs.length ∧ bs.take i.size = encode i

/-- R88: every header value is one of the nine rows of R92 or illegal, and no header selects two rows. -/
def Obligations.EveryHeaderIsOneRowOrIllegal : Prop :=
  (∀ (w : Word32) (r₁ r₂ : OpcodeRow), r₁ ∈ opcodeRows → r₂ ∈ opcodeRows → r₁.selects w = true → r₂.selects w = true → r₁ = r₂) ∧
  ∀ w : Word32,
    match decodeHeader w with
    | .ok h => ∃ r ∈ opcodeRows, r.selects w = true ∧ h = { op := r.op, eng := r.eng, len := w.toNat % 65536 }
    | .error _ => ∀ r ∈ opcodeRows, r.selects w = false

/-- R87, with the fields of R81 read off the header's value by division: the decoder rejects a header exactly when one of the four
tests of R87 fails. -/
def Obligations.HeaderIsRejectedByTheFourTests : Prop :=
  ∀ w : Word32,
    (∃ why, decodeHeader w = .error why) ↔
      (w.toNat / 2 ^ 16 % 2 ^ 8 ≠ 0 ∨ w.toNat / 2 ^ 28 ∉ [1, 2, 3] ∨ w.toNat / 2 ^ 24 % 2 ^ 4 ∉ [1, 2, 3] ∨
        (w.toNat / 2 ^ 28 ≠ 2 ∧
          w.toNat % 2 ^ 16 ≠ if w.toNat / 2 ^ 24 = 0x13 then 160 else 0))

/-- R92: header bytes written out in arrival order decode to their commands. -/
def Obligations.WrittenHeadersDecodeToTheirCommands : Prop :=
  decode [0x00, 0x00, 0x00, 0x11] = .command .initSha1 ∧
  decode [0x00, 0x00, 0x00, 0x12] = .command .initSha3 ∧
  decode ([0xA0, 0x00, 0x00, 0x13] ++ List.replicate 160 0x05) = .command (.initGost94 (List.replicate 160 0x05)) ∧
  decode [0x03, 0x00, 0x00, 0x21, 0x61, 0x62, 0x63] = .command (.absorbSha1 [0x61, 0x62, 0x63]) ∧
  decode [0x02, 0x00, 0x00, 0x22, 0x61, 0x62, 0xFF] = .command (.absorbSha3 [0x61, 0x62]) ∧
  decode [0x01, 0x00, 0x00, 0x23, 0x61] = .command (.absorbGost94 [0x61]) ∧
  decode [0x00, 0x00, 0x00, 0x31] = .command .finalizeSha1 ∧
  decode [0x00, 0x00, 0x00, 0x32] = .command .finalizeSha3 ∧
  decode [0x00, 0x00, 0x00, 0x33] = .command .finalizeGost94

/-- R61, R73: what the front of `CMD` decodes to does not depend on the bytes behind it. -/
def Obligations.LaterBytesDoNotChangeACommand : Prop :=
  ∀ (bs more : List Byte),
    (∀ i, decode bs = .command i → decode (bs ++ more) = .command i) ∧
    (∀ why, decode bs = .illegal why → decode (bs ++ more) = .illegal why)

/-- R8: the packings and their inverses. -/
def Obligations.PackingsAreInverse : Prop :=
  (∀ v : Word32, le32 (toLe32 v) = v ∧ be32 (toBe32 v) = v) ∧
  (∀ v : Word64, le64 (toLe64 v) = v ∧ be64 (toBe64 v) = v) ∧
  (∀ b : List Byte, b.length = 4 → toLe32 (le32 b) = b ∧ toBe32 (be32 b) = b) ∧
  (∀ b : List Byte, b.length = 8 → toLe64 (le64 b) = b ∧ toBe64 (be64 b) = b)

/-! ### The command cycle -/

/-- R120, R89: with no fault, a step executes the command that the front of `CMD` decodes to, on the state in which its `4 + LEN`
bytes have been consumed. -/
def Obligations.StepExecutesTheDecodedCommand : Prop :=
  ∀ (s : State) (i : Instr), s.fault = 0 → decode s.cmd = .command i →
    step s = exec i { s with cmd := s.cmd.drop (4 + i.payload.length), cpos := s.cpos + (4 + i.payload.length) }

/-- R121, R245: a halted CORE does nothing. That it is a step which changes nothing is the model's choice (assumption log 5). -/
def Obligations.HaltedCoreChangesNothing : Prop :=
  ∀ s : State, s.fault ≠ 0 → step s = .next s

/-- R61, R250: a CORE whose `CMD` holds fewer bytes than the next header or its payload waits and changes nothing. That it is a step
which changes nothing, and that the header waits with its payload, are the model's choices (assumption log 5, 7). -/
def Obligations.StuckCoreChangesNothing : Prop :=
  ∀ s : State, s.fault = 0 →
    (s.cmd.length < 4 ∨ ∃ h, decodeHeader (le32 (s.cmd.take 4)) = .ok h ∧ s.cmd.length < 4 + h.len) → step s = .next s

/-- R242, R87, R245: an illegal header is consumed, four bytes and no more, and FAULT becomes 0x02; nothing is output. Nothing is
said of the contexts, which have no specified value after a fault (R42). -/
def Obligations.IllegalHeaderRaisesIllegalCmd : Prop :=
  ∀ (s : State) (why : HeaderError), s.fault = 0 → 4 ≤ s.cmd.length → decodeHeader (le32 (s.cmd.take 4)) = .error why →
    ∃ t, step s = .next t ∧ t.fault = 0x02 ∧ t.cmd = s.cmd.drop 4 ∧ t.cpos = s.cpos + 4 ∧ t.out = s.out ∧ t.params = s.params

/-- R61, R33: a step only takes bytes off the front of `CMD`, and `CPOS` counts them. -/
def Obligations.StepConsumesFromTheFront : Prop :=
  ∀ s t : State, step s = .next t → ∃ k, k ≤ s.cmd.length ∧ t.cmd = s.cmd.drop k ∧ t.cpos = s.cpos + k

/-- R34, R62: `OUT` only grows, and only a FINALIZE command appends to it. -/
def Obligations.OnlyFinalizeAppendsToOut : Prop :=
  ∀ s t : State, step s = .next t →
    ∃ d, t.out = s.out ++ d ∧ (d ≠ [] → ∃ i, decode s.cmd = .command i ∧ i.op = .finalize)

/-- R32, R246: once FAULT is set, no number of steps changes anything. -/
def Obligations.FaultIsStickyForEver : Prop :=
  ∀ (k : Nat) (s : State), s.fault ≠ 0 → Sys2Proof.core.run k s = .next s

/-- R260, R37: the reset event, from any state, gives every piece of state its reset value and keeps the parameters. What R42 leaves
unspecified is not mentioned. -/
def Obligations.ResetEventEstablishesTheResetState : Prop :=
  ∀ s : State,
    (resetEvent s).sha1 =
      { h := { a := 0x67452301, b := 0xEFCDAB89, c := 0x98BADCFE, d := 0x10325476, e := 0xC3D2E1F0 }, nbits := 0, buf := [] } ∧
    (∀ i : Fin 25, (resetEvent s).sha3.a[i] = 0) ∧ (resetEvent s).sha3.buf = [] ∧
    (resetEvent s).gost.cfg = false ∧ (resetEvent s).gost.n.value = 0 ∧ (resetEvent s).gost.sigma.value = 0 ∧
    (resetEvent s).gost.buf = [] ∧ (resetEvent s).fault = 0 ∧ (resetEvent s).cmd = [] ∧ (resetEvent s).cpos = 0 ∧
    (resetEvent s).out = [] ∧ (resetEvent s).params = s.params

/-! ### The Block Buffer -/

/-- R105: absorbing `x` then `y` is absorbing `x ‖ y`, whatever the callback does. -/
def Obligations.BufferIgnoresChunking : Prop :=
  ∀ (σ : Type) (size : Nat) (block : σ → List Byte → σ) (buf : List Byte) (c : σ) (x y : List Byte),
    bufAbsorb size block buf c (x ++ y) =
      bufAbsorb size block (bufAbsorb size block buf c x).1 (bufAbsorb size block buf c x).2 y

/-- R103: with a callback that records its blocks, a message of `n` bytes absorbed into an empty buffer in any chunking and then
finalized dispatches its `n / B` whole blocks in order and then, exactly if bytes are left over, one zero-filled block; every
dispatched block has `B` bytes. -/
def Obligations.BufferDispatchesWholeBlocksThenOnePadded : Prop :=
  ∀ (size : Nat) (chunks : List (List Byte)), 0 < size →
    let record : List (List Byte) → List Byte → List (List Byte) := fun seen blk => seen ++ [blk]
    let m := chunks.flatten
    let r := chunks.foldl (fun r x => bufAbsorb size record r.1 r.2 x) ([], [])
    let f := bufFinalize size (fun seen blk _ => record seen blk) r.1 r.2
    r = (residue size m, blocksOf size m) ∧
    f = ([], if m.length % size = 0 then blocksOf size m else blocksOf size m ++ [zeroFill size (residue size m)]) ∧
    ∀ blk ∈ f.2, blk.length = size

/-! ### SHA-1 -/

/-- R192: the schedule's 80 words. -/
def Obligations.Sha1ScheduleFollowsTheRecurrence : Prop :=
  ∀ blk : List Byte,
    (sha1Schedule blk).length = 80 ∧
    (∀ t, t < 16 → (sha1Schedule blk).getD t 0 = be32 (slice blk (4 * t) (4 * t + 4))) ∧
    (∀ t, 16 ≤ t → t < 80 →
      (sha1Schedule blk).getD t 0 =
        ((sha1Schedule blk).getD (t - 3) 0 ^^^ (sha1Schedule blk).getD (t - 8) 0 ^^^ (sha1Schedule blk).getD (t - 14) 0 ^^^
          (sha1Schedule blk).getD (t - 16) 0).rotateLeft 1)

/-- R196: INIT.SHA1 completes in every state; the context is in its initial message state and nothing else changes. -/
def Obligations.InitSha1RestoresTheInitialState : Prop :=
  ∀ s : State,
    exec .initSha1 s =
      .next { s with sha1 :=
        { h := { a := 0x67452301, b := 0xEFCDAB89, c := 0x98BADCFE, d := 0x10325476, e := 0xC3D2E1F0 }, nbits := 0, buf := [] } }

/-- R197, R101, R35: ABSORB.SHA1 completes: the whole blocks of the pending and new bytes are compressed in order, what is left stays
pending, the bit counter wraps modulo `2^64`, and nothing else changes. -/
def Obligations.AbsorbSha1CompressesTheWholeBlocks : Prop :=
  ∀ (p : List Byte) (s : State), s.sha1.pos < 64 →
    exec (.absorbSha1 p) s =
      .next { s with sha1 :=
        { h := (blocksOf 64 (s.sha1.buf ++ p)).foldl sha1Compress s.sha1.h
          nbits := BitVec.ofNat 64 (s.sha1.nbits.toNat + 8 * p.length)
          buf := residue 64 (s.sha1.buf ++ p) } }

/-- R198: FINALIZE.SHA1 completes: the pending bytes, padded with 0x80, zero bytes and the 64-bit big-endian bit count, are
compressed, the five words are appended big-endian, the context is in its initial message state, and nothing else changes. -/
def Obligations.FinalizeSha1AppendsThePaddedDigest : Prop :=
  ∀ s : State, s.sha1.pos < 64 →
    exec .finalizeSha1 s =
      .next { s with
        sha1 := Sha1Ctx.initial
        out := s.out ++ ((blocksOf 64 (sha1Pad s.sha1.buf s.sha1.nbits)).foldl sha1Compress s.sha1.h).bytes }

/-- R123, R125, R126, R198, R200: from the initial message state, any ABSORB.SHA1 commands and then FINALIZE.SHA1 append the SHA-1
digest of the bytes absorbed, however they were divided, and leave everything else as it was. -/
def Obligations.Sha1DigestIgnoresChunking : Prop :=
  ∀ (chunks : List (List Byte)) (s : State), s.sha1 = Sha1Ctx.initial →
    execAll (chunks.map .absorbSha1 ++ [.finalizeSha1]) s = .next { s with out := s.out ++ sha1Digest chunks.flatten }

/-! ### SHA-3 -/

/-- R211, R212: the fold XORs block byte `j` into state byte `j` for the rate bytes and leaves the others; state byte `j` is bits
`8(j mod 8)+7 .. 8(j mod 8)` of lane `j div 8`. -/
def Obligations.KeccakFoldXorsTheRateBytes : Prop :=
  ∀ (rate : Nat) (a : Lanes) (blk : List Byte), rate % 8 = 0 → rate ≤ 200 → blk.length = rate →
    ∀ j : Fin 200,
      a.bytes.getD j.val 0 = (a[j.val / 8]).extractLsb' (8 * (j.val % 8)) 8 ∧
      (keccakFold rate a blk).bytes.getD j.val 0 =
        if j.val < rate then a.bytes.getD j.val 0 ^^^ blk.getD j.val 0 else a.bytes.getD j.val 0

/-- R232: each of the five steps of a round, lane by lane, with the indices of the rule. -/
def Obligations.KeccakRoundFollowsTheFiveSteps : Prop :=
  ∀ (rc : Word64) (a : Lanes) (x y : Nat), x < 5 → y < 5 →
    let c : Nat → Word64 := fun i => a.at i 0 ^^^ a.at i 1 ^^^ a.at i 2 ^^^ a.at i 3 ^^^ a.at i 4
    (keccakTheta a).at x y = a.at x y ^^^ (c ((x + 4) % 5) ^^^ (c ((x + 1) % 5)).rotateLeft 1) ∧
    (keccakRhoPi a).at y ((2 * x + 3 * y) % 5) = (a.at x y).rotateLeft (keccakRho x y) ∧
    (keccakChi a).at x y = a.at x y ^^^ (~~~(a.at ((x + 1) % 5) y) &&& a.at ((x + 2) % 5) y) ∧
    (keccakIota rc a).at x y = (if x = 0 ∧ y = 0 then a.at 0 0 ^^^ rc else a.at x y) ∧
    keccakRound rc a = keccakIota rc (keccakChi (keccakRhoPi (keccakTheta a)))

/-- R216: `Squeeze(D)` for any leaf: the first `D` bytes of the state when `D <= R`; otherwise the `R` rate bytes, then the rest from
the permuted state; `D` bytes in all. -/
def Obligations.SqueezeGivesTheRateBytesThenPermutes : Prop :=
  ∀ (leaf : Lanes → Lanes) (rate d : Nat) (a : Lanes), 8 ≤ rate → rate ≤ 192 →
    (squeeze leaf rate d a).length = d ∧
    (d ≤ rate → squeeze leaf rate d a = a.bytes.take d) ∧
    (rate < d → squeeze leaf rate d a = a.bytes.take rate ++ squeeze leaf rate (d - rate) (leaf a))

/-- R213: INIT.SHA3 completes in every state; the context is in its initial message state and nothing else changes. -/
def Obligations.InitSha3ClearsTheLanes : Prop :=
  ∀ s : State, ∃ a : Lanes, (∀ i : Fin 25, a[i] = 0) ∧ exec .initSha3 s = .next { s with sha3 := { a := a, buf := [] } }

/-- R214, R101, R35: ABSORB.SHA3 completes: the whole blocks of the pending and new bytes are absorbed in order, what is left stays
pending, and nothing else changes. The permutation is the block's leaf, whichever it is (R230). -/
def Obligations.AbsorbSha3AbsorbsTheWholeBlocks : Prop :=
  ∀ (p : List Byte) (s : State), s.sha3.pos < s.params.rate →
    exec (.absorbSha3 p) s =
      .next { s with sha3 :=
        { a := (blocksOf s.params.rate (s.sha3.buf ++ p)).foldl (fun x blk => keccakLeaf s.params (keccakFold s.params.rate x blk)) s.sha3.a
          buf := residue s.params.rate (s.sha3.buf ++ p) } }

/-- R215, R216: FINALIZE.SHA3 completes: the pending bytes, padded to exactly one block, are absorbed, the digest is squeezed out and
appended, the context is in its initial message state, and nothing else changes. The permutation is the block's leaf, whichever it
is (R230). -/
def Obligations.FinalizeSha3AppendsTheSqueezedDigest : Prop :=
  ∀ s : State, s.sha3.pos < s.params.rate →
    (sha3Pad s.params s.sha3.buf).length = s.params.rate ∧
    exec .finalizeSha3 s =
      .next { s with
        sha3 := Sha3Ctx.initial
        out := s.out ++
          squeeze (keccakLeaf s.params) s.params.rate s.params.outLen
            (keccakLeaf s.params (keccakFold s.params.rate s.sha3.a (sha3Pad s.params s.sha3.buf))) }

/-- R123, R125, R126, R215: from the initial message state, any ABSORB.SHA3 commands and then FINALIZE.SHA3 append the digest of the
bytes absorbed, however they were divided, and leave everything else as it was. The permutation is the block's leaf, whichever it
is (R230). -/
def Obligations.Sha3DigestIgnoresChunking : Prop :=
  ∀ (chunks : List (List Byte)) (s : State), s.sha3 = Sha3Ctx.initial →
    execAll (chunks.map .absorbSha3 ++ [.finalizeSha3]) s =
      .next { s with out := s.out ++ sha3Digest s.params chunks.flatten }

/-! ### GOST94 -/

/-- R151: nibble `i` of `Sub(x)` is table `i` at nibble `i` of `x`, and `Sub` is a bijection exactly when each table is one. -/
def Obligations.SubActsNibbleByNibble : Prop :=
  ∀ sbox : SBox,
    (∀ (x : Word32) (i : Fin 8),
      (gostSub sbox x).extractLsb' (4 * i.val) 4 = sbox[i][(x.extractLsb' (4 * i.val) 4).toFin]) ∧
    (Function.Bijective (gostSub sbox) ↔ ∀ i : Fin 8, Function.Bijective fun k : Fin 16 => sbox[i][k])

/-- R154: the round-key order. -/
def Obligations.KeyIndexSequence : Prop :=
  (List.range 32).map gostKeyIndex =
    [0, 1, 2, 3, 4, 5, 6, 7, 0, 1, 2, 3, 4, 5, 6, 7, 0, 1, 2, 3, 4, 5, 6, 7, 7, 6, 5, 4, 3, 2, 1, 0]

/-- R153: `Encrypt` permutes the 8-byte values for a fixed key, whatever the S-box. -/
def Obligations.EncryptIsInjectiveForEveryKey : Prop :=
  ∀ (sbox : SBox) (key : Bytes32) (d₁ d₂ : List Byte), d₁.length = 8 → d₂.length = 8 →
    gostEncrypt sbox key d₁ = gostEncrypt sbox key d₂ → d₁ = d₂

/-- R155, R156, R160: the transforms A, P and Psi byte by byte; Psi is linear over XOR and invertible. -/
def Obligations.TransformsMoveTheBytesOfTheRules : Prop :=
  (∀ (x : Bytes32) (i : Fin 32),
    (gostA x).toList.getD i.val 0 =
      if i.val < 24 then x.toList.getD (i.val + 8) 0 else x.toList.getD (i.val - 24) 0 ^^^ x.toList.getD (i.val - 16) 0) ∧
  (∀ (y : Bytes32) (i : Fin 4) (k : Fin 8), (gostP y).toList.getD (i.val + 4 * k.val) 0 = y.toList.getD (8 * i.val + k.val) 0) ∧
  (∀ (x : Bytes32) (i : Fin 30), (gostPsi x).toList.getD i.val 0 = x.toList.getD (i.val + 2) 0) ∧
  (∀ x : Bytes32,
    (gostPsi x)[30] = x[0] ^^^ x[2] ^^^ x[4] ^^^ x[6] ^^^ x[24] ^^^ x[30] ∧
    (gostPsi x)[31] = x[1] ^^^ x[3] ^^^ x[5] ^^^ x[7] ^^^ x[25] ^^^ x[31]) ∧
  (∀ x y : Bytes32, gostPsi (xor32 x y) = xor32 (gostPsi x) (gostPsi y)) ∧
  Function.Bijective gostPsi

/-- R163: `Add256` is exact, with its carry out. -/
def Obligations.Add256IsExact : Prop :=
  ∀ x y : Quad, (add256 x y).1.value + 2 ^ 256 * (add256 x y).2 = x.value + y.value ∧ (add256 x y).2 ≤ 1

/-- R165, R164: the length update overflows exactly at `2^256` bits and is otherwise exact; the checksum is a sum modulo `2^256`. -/
def Obligations.AccumulatorsCountBitsAndSumBlocks : Prop :=
  (∀ (n : Quad) (r : Nat), 1 ≤ r → r ≤ 32 →
    (2 ^ 256 ≤ n.value + 8 * r → lenAdd n r = .error .lenOverflow) ∧
    (n.value + 8 * r < 2 ^ 256 → ∃ z, lenAdd n r = .ok z ∧ z.value = n.value + 8 * r)) ∧
  (∀ (sigma : Quad) (blk : List Byte), blk.length = 32 →
    (sigmaAdd sigma blk).value = (sigma.value + leValue blk) % 2 ^ 256)

/-- R168, R85: INIT.GOST94 completes when every S-box byte is at most 15: S-box, IV and H are the payload's, the accumulators and the
buffer are empty, CFG is set, and nothing else changes. -/
def Obligations.InitGost94LoadsTheConfiguration : Prop :=
  ∀ (p : List Byte) (s : State), p.length = 160 → (∀ j, j < 128 → (p.getD j 0).toNat ≤ 15) →
    ∃ (sbox : SBox) (iv : Bytes32),
      (∀ (i : Fin 8) (k : Fin 16), (sbox[i][k]).toNat = (p.getD (16 * i.val + k.val) 0).toNat) ∧
      (∀ j : Fin 32, iv[j] = p.getD (128 + j.val) 0) ∧
      exec (.initGost94 p) s =
        .next { s with gost :=
          { h := iv, n := { w0 := 0, w1 := 0, w2 := 0, w3 := 0 }, sigma := { w0 := 0, w1 := 0, w2 := 0, w3 := 0 }, buf := [],
            sbox := sbox, iv := iv, cfg := true } }

/-- R168, R244, R245: INIT.GOST94 with an S-box byte above 15 sets FAULT to 0x04 and outputs nothing. Nothing is said of the
contexts, which have no specified value after a fault (R42). -/
def Obligations.MalformedSBoxRaisesConfigMalformed : Prop :=
  ∀ (p : List Byte) (s : State) (j : Nat), s.fault = 0 → j < 128 → 15 < (p.getD j 0).toNat →
    ∃ t, exec (.initGost94 p) s = .next t ∧ t.fault = 0x04 ∧ t.out = s.out ∧ t.cmd = s.cmd ∧ t.cpos = s.cpos ∧ t.params = s.params

/-- R169, R101, R166, R164, R165, R35: ABSORB.GOST94 completes on a configured context whose bit counter does not reach `2^256`: the
whole blocks of the pending and new bytes are compressed in order, each adds 256 to the counter and itself to the checksum, what
is left stays pending, and nothing else changes. -/
def Obligations.AbsorbGost94CompressesTheWholeBlocks : Prop :=
  ∀ (p : List Byte) (s : State), s.gost.cfg = true → s.gost.pos < 32 →
    s.gost.n.value + 256 * ((s.gost.buf ++ p).length / 32) < 2 ^ 256 →
    ∃ n sigma : Quad,
      n.value = s.gost.n.value + 256 * ((s.gost.buf ++ p).length / 32) ∧
      sigma.value = (s.gost.sigma.value + blockSum (blocksOf 32 (s.gost.buf ++ p))) % 2 ^ 256 ∧
      exec (.absorbGost94 p) s =
        .next { s with gost :=
          { s.gost with
            h := gostFold s.gost.sbox s.gost.h (blocksOf 32 (s.gost.buf ++ p))
            n := n
            sigma := sigma
            buf := residue 32 (s.gost.buf ++ p) } }

/-- R170, R171, R102: FINALIZE.GOST94 completes on a configured context whose bit counter does not reach `2^256`: a pending block is
zero-filled, compressed, counted and summed; the length and the checksum are compressed; the hash is appended; the context is in
its initial message state, with its S-box, IV and CFG; and nothing else changes. -/
def Obligations.FinalizeGost94AppendsTheDigest : Prop :=
  ∀ s : State, s.gost.cfg = true → s.gost.pos < 32 → s.gost.n.value + 8 * s.gost.pos < 2 ^ 256 →
    let last : List (List Byte) := if s.gost.pos = 0 then [] else [zeroFill 32 s.gost.buf]
    exec .finalizeGost94 s =
      .next { s with
        gost := { s.gost with
          h := s.gost.iv
          n := { w0 := 0, w1 := 0, w2 := 0, w3 := 0 }
          sigma := { w0 := 0, w1 := 0, w2 := 0, w3 := 0 }
          buf := [] }
        out := s.out ++
          (gostFold s.gost.sbox s.gost.h
            (last ++ [leBytes 32 (s.gost.n.value + 8 * s.gost.pos),
              leBytes 32 ((s.gost.sigma.value + leValue s.gost.buf) % 2 ^ 256)])).toList }

/-- R169, R170, R243, R245: a GOST94 message command before any INIT.GOST94 sets FAULT to 0x03 and outputs nothing. -/
def Obligations.UnconfiguredGost94RaisesUnconfigured : Prop :=
  ∀ (i : Instr) (s : State), s.fault = 0 → s.gost.cfg = false → i.engine = .gost94 → i.op ≠ .init →
    ∃ t, exec i s = .next t ∧ t.fault = 0x03 ∧ t.out = s.out ∧ t.cmd = s.cmd ∧ t.cpos = s.cpos ∧ t.params = s.params

/-- R165, R241, R245: a GOST94 command whose blocks would take the bit counter to `2^256` or more sets FAULT to 0x01 and outputs
nothing. -/
def Obligations.OverlongGost94RaisesLenOverflow : Prop :=
  ∀ s : State, s.fault = 0 → s.gost.cfg = true → s.gost.pos < 32 →
    (∀ p : List Byte, 2 ^ 256 ≤ s.gost.n.value + 256 * ((s.gost.buf ++ p).length / 32) →
      ∃ t, exec (.absorbGost94 p) s = .next t ∧ t.fault = 0x01 ∧ t.out = s.out ∧ t.cmd = s.cmd ∧ t.cpos = s.cpos ∧
        t.params = s.params) ∧
    (2 ^ 256 ≤ s.gost.n.value + 8 * s.gost.pos →
      ∃ t, exec .finalizeGost94 s = .next t ∧ t.fault = 0x01 ∧ t.out = s.out ∧ t.cmd = s.cmd ∧ t.cpos = s.cpos ∧
        t.params = s.params)

/-- R123, R125, R126, R164, R165, R170: from the initial message state of a configured context, any ABSORB.GOST94 commands of fewer
than `2^256` bits in all and then FINALIZE.GOST94 append the digest of the bytes absorbed, however they were divided, and leave
everything else as it was. -/
def Obligations.Gost94DigestIgnoresChunking : Prop :=
  ∀ (chunks : List (List Byte)) (s : State), s.gost.cfg = true → s.gost = s.gost.restart →
    8 * chunks.flatten.length < 2 ^ 256 →
    execAll (chunks.map .absorbGost94 ++ [.finalizeGost94]) s =
      .next { s with out := s.out ++ gostDigest s.gost.sbox s.gost.iv chunks.flatten }

/-! ### All engines -/

/-- R127: the digest sizes. -/
def Obligations.DigestSizes : Prop :=
  ∀ s t : State,
    (exec .finalizeSha1 s = .next t → ∃ d, t.out = s.out ++ d ∧ d.length = 20) ∧
    (exec .finalizeSha3 s = .next t → ∃ d, t.out = s.out ++ d ∧ d.length = s.params.outLen) ∧
    (exec .finalizeGost94 s = .next t → t.fault = 0 → ∃ d, t.out = s.out ++ d ∧ d.length = 32)

/-- R129: an ABSORB of no bytes changes nothing; for GOST94 the configuration is still checked. -/
def Obligations.EmptyAbsorbChangesNothing : Prop :=
  ∀ s : State,
    exec (.absorbSha1 []) s = .next s ∧
    exec (.absorbSha3 []) s = .next s ∧
    (s.gost.cfg = true → exec (.absorbGost94 []) s = .next s) ∧
    (s.gost.cfg = false → s.fault = 0 → ∃ t, exec (.absorbGost94 []) s = .next t ∧ t.fault = 0x03 ∧ t.out = s.out)

/-- R124: after FINALIZE the context is what INIT makes it; for GOST94, what INIT with the same payload makes it. -/
def Obligations.FinalizeLeavesWhatInitLeaves : Prop :=
  (∀ s t u : State, exec .finalizeSha1 s = .next t → exec .initSha1 s = .next u → t.sha1 = u.sha1) ∧
  (∀ s t u : State, exec .finalizeSha3 s = .next t → exec .initSha3 s = .next u → t.sha3 = u.sha3) ∧
  (∀ (chunks : List (List Byte)) (p : List Byte) (s t u : State), exec (.initGost94 p) s = .next u → u.fault = 0 →
    execAll (.initGost94 p :: (chunks.map .absorbGost94 ++ [.finalizeGost94])) s = .next t → t.fault = 0 → t.gost = u.gost)

/-- R36, R128: a command that raises no fault leaves the contexts of the other engines, the parameters and the streams' input side
as they were. -/
def Obligations.CommandLeavesOtherEnginesAlone : Prop :=
  ∀ (i : Instr) (e : Engine) (s t : State), exec i s = .next t → t.fault = 0 → e ≠ i.engine →
    sameContext e s t ∧ t.params = s.params ∧ t.cmd = s.cmd ∧ t.cpos = s.cpos

/-- R36, R128: what a command does to its engine's context, to FAULT and to OUT depends on that context alone. -/
def Obligations.CommandReadsOnlyItsOwnEngine : Prop :=
  ∀ (i : Instr) (s₁ s₂ t₁ t₂ : State), sameContext i.engine s₁ s₂ → s₁.fault = s₂.fault →
    exec i s₁ = .next t₁ → exec i s₂ = .next t₂ →
    t₁.fault = t₂.fault ∧ (t₁.fault = 0 → sameContext i.engine t₁ t₂) ∧ ∃ d, t₁.out = s₁.out ++ d ∧ t₂.out = s₂.out ++ d

/-- R128: two commands of different engines, not both FINALIZE, may change places when no fault is raised. -/
def Obligations.CommandsOfDifferentEnginesCommute : Prop :=
  ∀ (i j : Instr) (s t : State), i.engine ≠ j.engine → (i.op ≠ .finalize ∨ j.op ≠ .finalize) →
    execAll [i, j] s = .next t → t.fault = 0 → execAll [j, i] s = .next t

/-- R86, R91, R123: a long ABSORB, split into commands of at most 65535 bytes, does what one command with all the data would do. -/
def Obligations.LongAbsorbIsSound : Prop :=
  ∀ (e : Engine) (data : List Byte),
    (∀ i ∈ absorbLong e data, i.wellFormed = true) ∧
    ∀ s t : State, exec (absorbInstr e data) s = .next t → t.fault = 0 → execAll (absorbLong e data) s = .next t

/-- R10, R125, R251: a step always has a next state. That a halted or a stuck CORE has one is the model's choice (assumption log
5). -/
def Obligations.EveryStepHasANextState : Prop :=
  ∀ s : State, ∃ t, step s = .next t

/-! ### Invariants -/

/-- R35, R37, R240: the state after reset is legal. -/
def Obligations.ResetStateIsLegal : Prop := State.reset.Inv

/-- R35, R22, R28, R240: every step from a legal state, reached or not, gives a legal state: the cursors stay below the block sizes,
the length counters agree with the cursors, FAULT holds a code of R240, and an unconfigured GOST94 context has absorbed nothing. -/
def Obligations.EveryStepKeepsTheStateLegal : Prop :=
  ∀ s t : State, s.Inv → step s = .next t → t.Inv

/-- R42, R261: before INIT.GOST94, the values of GOST.SBOX, GOST.IV and GOST.H have no influence on anything the host ever sees, so the
values the model gives them at reset (assumption log 1) are not observable. -/
def Obligations.UnspecifiedGostStateIsNeverSeen : Prop :=
  ∀ (k : Nat) (s t t' : State) (h iv : Bytes32) (sbox : SBox), s.gost.cfg = false →
    Sys2Proof.core.run k s = .next t → Sys2Proof.core.run k (s.withUnspecified h iv sbox) = .next t' → t.visible = t'.visible
end

