-- ==== Sys2Proof/Laws/Bytes.lean ====
section
/-! SUPPORT. The lengths and bounds of the packing primitives. -/

namespace Sys2Proof.Machine

@[simp] theorem leBytes_length (n v : Nat) : (leBytes n v).length = n := by
  induction n generalizing v with
  | zero => rfl
  | succ n ih => simp [leBytes, ih]

@[simp] theorem toLe32_length (v : Word32) : (toLe32 v).length = 4 := leBytes_length 4 _

@[simp] theorem toLe64_length (v : Word64) : (toLe64 v).length = 8 := leBytes_length 8 _

@[simp] theorem toBe32_length (v : Word32) : (toBe32 v).length = 4 := by simp [toBe32]

@[simp] theorem toBe64_length (v : Word64) : (toBe64 v).length = 8 := by simp [toBe64]

theorem slice_length (b : List Byte) (i j : Nat) (h : j ≤ b.length) : (slice b i j).length = j - i := by
  simp only [slice, List.length_take, List.length_drop]
  omega

theorem zeroFill_length (n : Nat) (b : List Byte) (h : b.length ≤ n) : (zeroFill n b).length = n := by
  simp only [zeroFill, List.length_append, List.length_replicate]
  omega

theorem leValue_lt (b : List Byte) : leValue b < 256 ^ b.length := by
  induction b with
  | nil => simp [leValue]
  | cons x xs ih =>
    have hx := x.isLt
    simp only [leValue, List.length_cons, Nat.pow_succ]
    omega

theorem leValue_append (a b : List Byte) : leValue (a ++ b) = leValue a + 256 ^ a.length * leValue b := by
  induction a with
  | nil => simp [leValue]
  | cons x xs ih =>
    simp only [List.cons_append, leValue, ih, List.length_cons, Nat.pow_succ]
    ring

/-- A byte of a fixed array made from a list. -/
theorem fixed_getElem (n : Nat) (b : List Byte) (i : Nat) (h : i < n) : (fixed n b)[i] = b.getD i 0 := by
  simp [fixed]

end Sys2Proof.Machine
end

