-- ==== Sys2Proof/Laws/State.lean ====
section
/-! SUPPORT. One lemma for each field of State under each named update of it. -/

namespace Sys2Proof.Machine

@[simp] theorem consume_params (n : Nat) (s : State) : (s.consume n).params = s.params := rfl
@[simp] theorem consume_sha1 (n : Nat) (s : State) : (s.consume n).sha1 = s.sha1 := rfl
@[simp] theorem consume_sha3 (n : Nat) (s : State) : (s.consume n).sha3 = s.sha3 := rfl
@[simp] theorem consume_gost (n : Nat) (s : State) : (s.consume n).gost = s.gost := rfl
@[simp] theorem consume_fault (n : Nat) (s : State) : (s.consume n).fault = s.fault := rfl
@[simp] theorem consume_cmd (n : Nat) (s : State) : (s.consume n).cmd = s.cmd.drop n := rfl
@[simp] theorem consume_cpos (n : Nat) (s : State) : (s.consume n).cpos = s.cpos + n := rfl
@[simp] theorem consume_out (n : Nat) (s : State) : (s.consume n).out = s.out := rfl

@[simp] theorem outWrite_params (b : List Byte) (s : State) : (outWrite b s).params = s.params := rfl
@[simp] theorem outWrite_sha1 (b : List Byte) (s : State) : (outWrite b s).sha1 = s.sha1 := rfl
@[simp] theorem outWrite_sha3 (b : List Byte) (s : State) : (outWrite b s).sha3 = s.sha3 := rfl
@[simp] theorem outWrite_gost (b : List Byte) (s : State) : (outWrite b s).gost = s.gost := rfl
@[simp] theorem outWrite_fault (b : List Byte) (s : State) : (outWrite b s).fault = s.fault := rfl
@[simp] theorem outWrite_cmd (b : List Byte) (s : State) : (outWrite b s).cmd = s.cmd := rfl
@[simp] theorem outWrite_cpos (b : List Byte) (s : State) : (outWrite b s).cpos = s.cpos := rfl
@[simp] theorem outWrite_out (b : List Byte) (s : State) : (outWrite b s).out = s.out ++ b := rfl

@[simp] theorem raiseFault_params (c : FaultCode) (s : State) : (raiseFault c s).params = s.params := rfl
@[simp] theorem raiseFault_sha1 (c : FaultCode) (s : State) : (raiseFault c s).sha1 = s.sha1 := rfl
@[simp] theorem raiseFault_sha3 (c : FaultCode) (s : State) : (raiseFault c s).sha3 = s.sha3 := rfl
@[simp] theorem raiseFault_gost (c : FaultCode) (s : State) : (raiseFault c s).gost = s.gost := rfl
@[simp] theorem raiseFault_fault (c : FaultCode) (s : State) : (raiseFault c s).fault = if s.fault = 0 then c.code else s.fault := rfl
@[simp] theorem raiseFault_cmd (c : FaultCode) (s : State) : (raiseFault c s).cmd = s.cmd := rfl
@[simp] theorem raiseFault_cpos (c : FaultCode) (s : State) : (raiseFault c s).cpos = s.cpos := rfl
@[simp] theorem raiseFault_out (c : FaultCode) (s : State) : (raiseFault c s).out = s.out := rfl

@[simp] theorem resetEvent_params (s : State) : (resetEvent s).params = s.params := rfl
@[simp] theorem resetEvent_sha1 (s : State) : (resetEvent s).sha1 = Sha1Ctx.initial := rfl
@[simp] theorem resetEvent_sha3 (s : State) : (resetEvent s).sha3 = Sha3Ctx.initial := rfl
@[simp] theorem resetEvent_gost (s : State) : (resetEvent s).gost = GostCtx.unconfigured := rfl
@[simp] theorem resetEvent_fault (s : State) : (resetEvent s).fault = 0 := rfl
@[simp] theorem resetEvent_cmd (s : State) : (resetEvent s).cmd = [] := rfl
@[simp] theorem resetEvent_cpos (s : State) : (resetEvent s).cpos = 0 := rfl
@[simp] theorem resetEvent_out (s : State) : (resetEvent s).out = [] := rfl

@[simp] theorem hostSupply_params (b : List Byte) (s : State) : (hostSupply b s).params = s.params := rfl
@[simp] theorem hostSupply_sha1 (b : List Byte) (s : State) : (hostSupply b s).sha1 = s.sha1 := rfl
@[simp] theorem hostSupply_sha3 (b : List Byte) (s : State) : (hostSupply b s).sha3 = s.sha3 := rfl
@[simp] theorem hostSupply_gost (b : List Byte) (s : State) : (hostSupply b s).gost = s.gost := rfl
@[simp] theorem hostSupply_fault (b : List Byte) (s : State) : (hostSupply b s).fault = s.fault := rfl
@[simp] theorem hostSupply_cmd (b : List Byte) (s : State) : (hostSupply b s).cmd = s.cmd ++ b := rfl
@[simp] theorem hostSupply_cpos (b : List Byte) (s : State) : (hostSupply b s).cpos = s.cpos := rfl
@[simp] theorem hostSupply_out (b : List Byte) (s : State) : (hostSupply b s).out = s.out := rfl

@[simp] theorem withFetchWord_params (s : State) (nbits w : Nat) : (s.withFetchWord nbits w).params = s.params := rfl
@[simp] theorem withFetchWord_sha1 (s : State) (nbits w : Nat) : (s.withFetchWord nbits w).sha1 = s.sha1 := rfl
@[simp] theorem withFetchWord_sha3 (s : State) (nbits w : Nat) : (s.withFetchWord nbits w).sha3 = s.sha3 := rfl
@[simp] theorem withFetchWord_gost (s : State) (nbits w : Nat) : (s.withFetchWord nbits w).gost = s.gost := rfl
@[simp] theorem withFetchWord_fault (s : State) (nbits w : Nat) : (s.withFetchWord nbits w).fault = 0 := rfl
@[simp] theorem withFetchWord_cmd (s : State) (nbits w : Nat) : (s.withFetchWord nbits w).cmd = tableBytes nbits w ++ s.cmd := rfl
@[simp] theorem withFetchWord_cpos (s : State) (nbits w : Nat) : (s.withFetchWord nbits w).cpos = s.cpos := rfl
@[simp] theorem withFetchWord_out (s : State) (nbits w : Nat) : (s.withFetchWord nbits w).out = s.out := rfl

@[simp] theorem withUnspecified_params (s : State) (h iv : Bytes32) (sbox : SBox) : (s.withUnspecified h iv sbox).params = s.params := rfl
@[simp] theorem withUnspecified_sha1 (s : State) (h iv : Bytes32) (sbox : SBox) : (s.withUnspecified h iv sbox).sha1 = s.sha1 := rfl
@[simp] theorem withUnspecified_sha3 (s : State) (h iv : Bytes32) (sbox : SBox) : (s.withUnspecified h iv sbox).sha3 = s.sha3 := rfl
@[simp] theorem withUnspecified_gost (s : State) (h iv : Bytes32) (sbox : SBox) : (s.withUnspecified h iv sbox).gost = { s.gost with h := h, iv := iv, sbox := sbox } := rfl
@[simp] theorem withUnspecified_fault (s : State) (h iv : Bytes32) (sbox : SBox) : (s.withUnspecified h iv sbox).fault = s.fault := rfl
@[simp] theorem withUnspecified_cmd (s : State) (h iv : Bytes32) (sbox : SBox) : (s.withUnspecified h iv sbox).cmd = s.cmd := rfl
@[simp] theorem withUnspecified_cpos (s : State) (h iv : Bytes32) (sbox : SBox) : (s.withUnspecified h iv sbox).cpos = s.cpos := rfl
@[simp] theorem withUnspecified_out (s : State) (h iv : Bytes32) (sbox : SBox) : (s.withUnspecified h iv sbox).out = s.out := rfl

@[simp] theorem reset_params : State.reset.params = sha3_256 := rfl
@[simp] theorem reset_sha1 : State.reset.sha1 = Sha1Ctx.initial := rfl
@[simp] theorem reset_sha3 : State.reset.sha3 = Sha3Ctx.initial := rfl
@[simp] theorem reset_gost : State.reset.gost = GostCtx.unconfigured := rfl
@[simp] theorem reset_fault : State.reset.fault = 0 := rfl
@[simp] theorem reset_cmd : State.reset.cmd = [] := rfl
@[simp] theorem reset_cpos : State.reset.cpos = 0 := rfl
@[simp] theorem reset_out : State.reset.out = [] := rfl

/-- The leaf of a block built with the standard permutation. -/
theorem keccakLeaf_standard (p : Sha3Params) (h : p.leaf = .standard) : keccakLeaf p = keccakF1600 := by
  simp [keccakLeaf, h]

/-- The leaf of a block built with any other. -/
theorem keccakLeaf_external (p : Sha3Params) (h : p.leaf = .external) : keccakLeaf p = Config.externalLeaf := by
  simp [keccakLeaf, h]

@[simp] theorem sha1Initial_h : Sha1Ctx.initial.h = sha1Iv := rfl
@[simp] theorem sha1Initial_nbits : Sha1Ctx.initial.nbits = 0 := rfl
@[simp] theorem sha1Initial_buf : Sha1Ctx.initial.buf = [] := rfl
@[simp] theorem sha3Initial_a : Sha3Ctx.initial.a = zeroLanes := rfl
@[simp] theorem sha3Initial_buf : Sha3Ctx.initial.buf = [] := rfl

@[simp] theorem restart_h (c : GostCtx) : c.restart.h = c.iv := rfl
@[simp] theorem restart_n (c : GostCtx) : c.restart.n = Quad.zero := rfl
@[simp] theorem restart_sigma (c : GostCtx) : c.restart.sigma = Quad.zero := rfl
@[simp] theorem restart_buf (c : GostCtx) : c.restart.buf = [] := rfl
@[simp] theorem restart_sbox (c : GostCtx) : c.restart.sbox = c.sbox := rfl
@[simp] theorem restart_iv (c : GostCtx) : c.restart.iv = c.iv := rfl
@[simp] theorem restart_cfg (c : GostCtx) : c.restart.cfg = c.cfg := rfl

/-- What raising a fault can do to FAULT: it is set if it was 0 and keeps its value otherwise; it is never 0 afterwards. -/
theorem raiseFault_fault_ne_zero (c : FaultCode) (s : State) : (raiseFault c s).fault ≠ 0 := by
  simp only [raiseFault_fault]
  split
  · cases c <;> decide
  · assumption

theorem raiseFault_of_no_fault (c : FaultCode) (s : State) (h : s.fault = 0) : (raiseFault c s).fault = c.code := by
  simp [h]

theorem faultCode_le_four (c : FaultCode) : c.code.toNat ≤ 4 := by
  cases c <;> decide

end Sys2Proof.Machine
end

