-- ==== Sys2Proof/Laws/Exec.lean ====
section
/-! SUPPORT. What the meanings of each engine and a step can do, said once. -/

namespace Sys2Proof.Machine

/-- A SHA-1 command replaces the SHA-1 context and appends to OUT, and does nothing else. -/
theorem exec_sha1_shape (i : Instr) (s : State) (h : i.engine = .sha1) :
    ∃ c d, exec i s = .next (outWrite d { s with sha1 := c }) := by
  cases i <;> simp [Instr.engine] at h
  · exact ⟨Sha1Ctx.initial, [], by simp [exec, execInitSha1, outWrite]⟩
  · next p => exact ⟨s.sha1.absorb p, [], by simp [exec, execAbsorbSha1, outWrite]⟩
  · exact ⟨Sha1Ctx.initial, s.sha1.finalState.bytes, rfl⟩

/-- A SHA-3 command replaces the SHA-3 context and appends to OUT, and does nothing else. -/
theorem exec_sha3_shape (i : Instr) (s : State) (h : i.engine = .sha3) :
    ∃ c d, exec i s = .next (outWrite d { s with sha3 := c }) := by
  cases i <;> simp [Instr.engine] at h
  · exact ⟨Sha3Ctx.initial, [], by simp [exec, execInitSha3, outWrite]⟩
  · next p => exact ⟨s.sha3.absorb s.params p, [], by simp [exec, execAbsorbSha3, outWrite]⟩
  · exact ⟨Sha3Ctx.initial, _, rfl⟩

/-- A GOST94 command raises a fault, or replaces the GOST94 context and appends to OUT and does nothing else. -/
theorem exec_gost94_shape (i : Instr) (s : State) (h : i.engine = .gost94) :
    (∃ f, exec i s = .next (raiseFault f s)) ∨ ∃ c d, exec i s = .next (outWrite d { s with gost := c }) := by
  cases i <;> simp [Instr.engine] at h
  · next p =>
    by_cases hp : sboxInRange p = true
    · exact .inr ⟨GostCtx.configured p, [], by simp [exec, execInitGost94, hp, outWrite]⟩
    · exact .inl ⟨.configMalformed, by simp [exec, execInitGost94, hp]⟩
  · next p =>
    by_cases hc : s.gost.cfg = true
    · cases ha : s.gost.absorb p with
      | error f => exact .inl ⟨f, by simp [exec, execAbsorbGost94, hc, ha]⟩
      | ok c => exact .inr ⟨c, [], by simp [exec, execAbsorbGost94, hc, ha, outWrite]⟩
    · exact .inl ⟨.unconfigured, by simp [exec, execAbsorbGost94, hc]⟩
  · by_cases hc : s.gost.cfg = true
    · cases ha : s.gost.flush with
      | error f => exact .inl ⟨f, by simp [exec, execFinalizeGost94, hc, ha]⟩
      | ok c => exact .inr ⟨c.restart, c.digest.toList, by simp [exec, execFinalizeGost94, hc, ha]⟩
    · exact .inl ⟨.unconfigured, by simp [exec, execFinalizeGost94, hc]⟩

/-- All that a step can do (R120): nothing, ILLEGAL_CMD after the four header bytes, or the decoded command after its bytes. -/
theorem step_cases (s : State) :
    step s = .next s ∨
    (s.fault = 0 ∧ (∃ why, decode s.cmd = .illegal why) ∧ step s = .next (raiseFault .illegalCmd (s.consume 4))) ∨
    (s.fault = 0 ∧ ∃ i, decode s.cmd = .command i ∧ step s = exec i (s.consume i.size)) := by
  by_cases hf : s.fault = 0
  · cases hd : decode s.cmd with
    | incomplete => exact .inl (by simp [step, fetch, hf, hd])
    | illegal why => exact .inr (.inl ⟨hf, ⟨why, rfl⟩, by simp [step, fetch, hf, hd]⟩)
    | command i => exact .inr (.inr ⟨hf, i, rfl, by simp [step, fetch, hf, hd]⟩)
  · have hh : fetch s = .halted := if_neg hf
    exact .inl (by simp [step, hh])

end Sys2Proof.Machine
end

