-- ==== Sys2Proof/Laws/Ops.lean ====
section
/-! SUPPORT. The Block Buffer, said once: one equation for each case of `bufAbsorb`, and where it leaves the cursor. -/

namespace Sys2Proof.Machine

@[simp] theorem bufAbsorb_nil {σ : Type} (size : Nat) (block : σ → List Byte → σ) (buf : List Byte) (x : σ) :
    bufAbsorb size block buf x [] = (buf, x) := rfl

/-- A byte that does not complete the block is only appended. -/
theorem bufAbsorb_cons_pending {σ : Type} (size : Nat) (block : σ → List Byte → σ) (buf : List Byte) (x : σ) (d : Byte)
    (ds : List Byte) (h : buf.length + 1 < size) :
    bufAbsorb size block buf x (d :: ds) = bufAbsorb size block (buf ++ [d]) x ds := by
  have hne : ¬ (buf ++ [d]).length = size := by simp; omega
  rw [bufAbsorb, if_neg hne]

/-- The byte that completes the block dispatches it. -/
theorem bufAbsorb_cons_full {σ : Type} (size : Nat) (block : σ → List Byte → σ) (buf : List Byte) (x : σ) (d : Byte)
    (ds : List Byte) (h : buf.length + 1 = size) :
    bufAbsorb size block buf x (d :: ds) = bufAbsorb size block [] (block x (buf ++ [d])) ds := by
  have heq : (buf ++ [d]).length = size := by simpa using h
  rw [bufAbsorb, if_pos heq]

/-- The cursor stays below the block size, and counts modulo it. -/
theorem bufAbsorb_length {σ : Type} (size : Nat) (block : σ → List Byte → σ) (buf : List Byte) (x : σ) (p : List Byte)
    (h : buf.length < size) :
    (bufAbsorb size block buf x p).1.length = (buf.length + p.length) % size := by
  induction p generalizing buf x with
  | nil => simp [Nat.mod_eq_of_lt h]
  | cons d ds ih =>
    by_cases hfull : buf.length + 1 = size
    · rw [bufAbsorb_cons_full size block buf x d ds hfull, ih [] _ (by simp; omega)]
      have hlen : buf.length + (d :: ds).length = size + ds.length := by simp; omega
      rw [hlen, Nat.add_mod_left]
      simp
    · rw [bufAbsorb_cons_pending size block buf x d ds (by omega), ih _ _ (by simp; omega)]
      congr 1
      simp
      omega

/-- A finalized buffer is empty. -/
theorem bufFinalize_buf {σ : Type} (size : Nat) (blockPartial : σ → List Byte → Nat → σ) (buf : List Byte) (x : σ) :
    (bufFinalize size blockPartial buf x).1 = [] := by
  unfold bufFinalize
  split
  · next h => exact List.length_eq_zero_iff.mp h
  · rfl

/-- All that a GOST94 data block can do (R166): LEN_OVERFLOW, or a context with a new `N`, `H` and `SIGMA` and nothing else new. -/
theorem dataBlock_ok (c c' : GostCtx) (blk : List Byte) (r : Nat) (h : c.dataBlock blk r = .ok c') :
    ∃ n, lenAdd c.n r = .ok n ∧
      c' = { c with n := n, h := gostF c.sbox c.h (fixed 32 blk), sigma := sigmaAdd c.sigma blk } := by
  unfold GostCtx.dataBlock at h
  split at h
  · exact absurd h (by simp)
  · next n hn => exact ⟨n, hn, by simpa using h.symm⟩

/-- After a fault the callback does nothing more (R101, R245). -/
@[simp] theorem gostFullBlock_error (f : FaultCode) (blk : List Byte) : gostFullBlock (.error f) blk = .error f := rfl

theorem bufAbsorb_gost_error (buf : List Byte) (f : FaultCode) (p : List Byte) :
    (bufAbsorb gostBlock gostFullBlock buf (.error f) p).2 = .error f := by
  induction p generalizing buf with
  | nil => rfl
  | cons d ds ih =>
    unfold bufAbsorb
    split
    · exact ih []
    · exact ih _

end Sys2Proof.Machine
end

