-- ==== Sys2Proof/Laws/PerInstr.lean ====
section
/-! SUPPORT. The per-instruction family `HeaderSelects`: the header fields of a well-formed command are legal, and select the command
again. -/

namespace Sys2Proof.Laws.HeaderSelects

/-- The command's payload length is legal for its header (R84), and its header with its payload is the command (R92). -/
def Statement (i : Instr) : Prop :=
  i.wellFormed = true →
    legalLen i.op i.engine i.payload.length = true ∧
      Header.instr { op := i.op, eng := i.engine, len := i.payload.length } i.payload = i

theorem initSha1 : Statement .initSha1 := fun _ => ⟨rfl, rfl⟩

theorem initSha3 : Statement .initSha3 := fun _ => ⟨rfl, rfl⟩

theorem initGost94 (p : List Byte) : Statement (.initGost94 p) := fun h => ⟨h, rfl⟩

theorem absorbSha1 (p : List Byte) : Statement (.absorbSha1 p) := fun _ => ⟨rfl, rfl⟩

theorem absorbSha3 (p : List Byte) : Statement (.absorbSha3 p) := fun _ => ⟨rfl, rfl⟩

theorem absorbGost94 (p : List Byte) : Statement (.absorbGost94 p) := fun _ => ⟨rfl, rfl⟩

theorem finalizeSha1 : Statement .finalizeSha1 := fun _ => ⟨rfl, rfl⟩

theorem finalizeSha3 : Statement .finalizeSha3 := fun _ => ⟨rfl, rfl⟩

theorem finalizeGost94 : Statement .finalizeGost94 := fun _ => ⟨rfl, rfl⟩

end Sys2Proof.Laws.HeaderSelects
end

