-- ==== Sys2Proof/Tests/Slice0.lean ====
section
/-! SUPPORT. The model's own tests. Expected values are the spec's: header bytes from 30_encoding.md rule R92 and 95_test_vectors.md
section 4.1, digests and states from the sections of 95_test_vectors.md named at each test. The theorems named `witness_…` show
values that meet all hypotheses of the statement they name. -/

-- One theorem at a time: each kernel evaluation in flight would hold a thread of its own.
set_option Elab.async false

namespace Sys2Proof.Tests

open Sys2Proof.Machine

/-- The next state of an outcome. -/
def nextOf (r : Result) : Option State :=
  match r with
  | .next t => some t
  | .fault _ => none
  | .refused _ => none

/-- The state after reset with the bytes `b` on CMD. -/
def supplied (b : List Byte) : State := hostSupply b State.reset

/-- The payload of `INIT.GOST94 sbox=TEST iv=ZERO` (R172). -/
def testPayload : List Byte := sboxPayload testRows ++ List.replicate 32 0

/-- The context after `INIT.GOST94 sbox=TEST iv=ZERO`. -/
def testGost : GostCtx := { GostCtx.unconfigured with sbox := testSBox, cfg := true }

/-- A state whose GOST94 context is configured so. -/
def gostState (b : List Byte) : State := { supplied b with gost := testGost }

/-- The counter value `[0xFFFFFFFFFFFFFF00, M, M, M]` of 95_test_vectors.md section 2.4. -/
def nearlyFull : Quad :=
  { w0 := 0xFFFFFFFFFFFFFF00, w1 := 0xFFFFFFFFFFFFFFFF, w2 := 0xFFFFFFFFFFFFFFFF, w3 := 0xFFFFFFFFFFFFFFFF }

/-- A state at the edge of LEN_OVERFLOW with `b` pending. -/
def edgeState (b : List Byte) : State := { gostState [] with gost := { testGost with n := nearlyFull, buf := b } }

/-- A block with an uninterpreted leaf and 8 rate bytes. -/
def externalState : State :=
  { State.reset with params :=
    { rate := 8, outLen := 9, ds := 0x06, leaf := .external, rate_legal := by decide, outLen_legal := by decide } }

/-- A halted state. -/
def haltedState : State := { supplied [0x00, 0x00, 0x00, 0x31] with fault := 0x02 }

/-! ### Well-formedness: each check refuses an ill-formed term (R84) -/

theorem test_wf_initGost94_refuses_159 : (Instr.initGost94 (List.replicate 159 0)).wellFormed = false := by decide +kernel

theorem test_wf_initGost94_accepts_160 : (Instr.initGost94 testPayload).wellFormed = true := by decide +kernel

theorem test_wf_absorbSha1_refuses_65536 : (Instr.absorbSha1 (List.replicate 65536 0)).wellFormed = false := by
  rw [Instr.wellFormed, List.length_replicate]
  decide

theorem test_wf_absorbSha3_refuses_65536 : (Instr.absorbSha3 (List.replicate 65536 0)).wellFormed = false := by
  rw [Instr.wellFormed, List.length_replicate]
  decide

theorem test_wf_absorbGost94_refuses_65536 : (Instr.absorbGost94 (List.replicate 65536 0)).wellFormed = false := by
  rw [Instr.wellFormed, List.length_replicate]
  decide

theorem test_wf_absorbSha1_accepts_65535 : (Instr.absorbSha1 (List.replicate 65535 0)).wellFormed = true := by
  rw [Instr.wellFormed, List.length_replicate]
  decide

/-! ### Decoding of bytes written out from R92 (section 4.1) -/

theorem test_decode_initSha1 : decode [0x00, 0x00, 0x00, 0x11] = .command .initSha1 := by decide +kernel

theorem test_decode_initSha3 : decode [0x00, 0x00, 0x00, 0x12] = .command .initSha3 := by decide +kernel

theorem test_decode_initGost94 :
    decode ([0xa0, 0x00, 0x00, 0x13] ++ testPayload) = .command (.initGost94 testPayload) := by decide +kernel

theorem test_decode_absorbSha1 : decode [0x03, 0x00, 0x00, 0x21, 0x61, 0x62, 0x63] = .command (.absorbSha1 [0x61, 0x62, 0x63]) := by
  decide +kernel

theorem test_decode_absorbSha3 :
    decode ([0x04, 0x01, 0x00, 0x22] ++ List.replicate 260 0x07) = .command (.absorbSha3 (List.replicate 260 0x07)) := by
  decide +kernel

theorem test_decode_absorbGost94 : decode [0x01, 0x00, 0x00, 0x23, 0x61] = .command (.absorbGost94 [0x61]) := by decide +kernel

theorem test_decode_finalizeSha1 : decode [0x00, 0x00, 0x00, 0x31] = .command .finalizeSha1 := by decide +kernel

theorem test_decode_finalizeSha3 : decode [0x00, 0x00, 0x00, 0x32] = .command .finalizeSha3 := by decide +kernel

theorem test_decode_finalizeGost94 : decode [0x00, 0x00, 0x00, 0x33] = .command .finalizeGost94 := by decide +kernel

theorem test_decode_zero_word : decode [0x00, 0x00, 0x00, 0x00] = .illegal .badOp := by decide +kernel

theorem test_decode_reserved : decode [0x00, 0x00, 0x01, 0x21] = .illegal .reservedBits := by decide +kernel

theorem test_decode_engine_four : decode [0x00, 0x00, 0x00, 0x24] = .illegal .badEngine := by decide +kernel

theorem test_decode_init_159 : decode [0x9f, 0x00, 0x00, 0x13] = .illegal .badLen := by decide +kernel

theorem test_decode_short_payload : decode [0x04, 0x00, 0x00, 0x21, 0x61, 0x62] = .incomplete := by decide +kernel

theorem test_table_words :
    decodeTableWord 32 0x11000000 = some .initSha1 ∧ decodeTableWord 32 0x21000002 = some (.absorbSha1 [0, 0]) ∧
    decodeTableWord 32 0x130000A0 = some (.initGost94 (List.replicate 160 0)) ∧ decodeTableWord 32 0x34000000 = none := by
  decide +kernel

theorem test_encode_absorbSha3 : encode (.absorbSha3 [0x61, 0x62]) = [0x02, 0x00, 0x00, 0x22, 0x61, 0x62] := by decide +kernel

/-! ### Primitives (sections 1.1, 2.1) -/

theorem test_sub_test_set : gostSub testSBox 0x76543210 = 0x452511B4 := by decide +kernel

theorem test_sub_cryptopro_set : gostSub cryptoProSBox 0x76543210 = 0xF599CCFA := by decide +kernel

theorem test_encrypt_test_set :
    gostEncrypt testSBox (Vector.ofFn fun i => BitVec.ofNat 8 i.val) [0, 1, 2, 3, 4, 5, 6, 7] =
      [0xd4, 0x8f, 0x98, 0x74, 0x5d, 0x38, 0xb9, 0xd2] := by decide +kernel

theorem test_psi_one :
    gostPsi (Vector.ofFn fun i => if i.val = 2 then 1 else 0) =
      Vector.ofFn fun i => if i.val = 0 ∨ i.val = 30 then 1 else 0 := by decide +kernel

theorem test_schedule_last :
    (sha1Schedule ([0x61, 0x62, 0x63, 0x80] ++ List.replicate 59 0 ++ [0x18])).getD 79 0 = 0x822E0879 := by decide +kernel

/-- R232's example: 25 zero lanes. -/
theorem test_keccakF1600_zero :
    (keccakF1600 zeroLanes).at 0 0 = 0xF1258F7940E1DDE7 ∧ (keccakF1600 zeroLanes).at 4 0 = 0x8B284E056253D057 ∧
    (keccakF1600 zeroLanes).at 4 4 = 0xEAF1FF7B5CECA249 := by decide +kernel

/-! ### One step of each instruction -/

/-- Program P5's INIT, in mid-message. -/
theorem test_initSha1 :
    nextOf (step { supplied [0x00, 0x00, 0x00, 0x11] with
      sha1 := { h := { a := 1, b := 2, c := 3, d := 4, e := 5 }, nbits := 24, buf := [0x78, 0x79, 0x7a] } }) =
      some { State.reset with cpos := 4 } := by decide +kernel

/-- R197's example. -/
theorem test_absorbSha1 :
    nextOf (step (supplied [0x03, 0x00, 0x00, 0x21, 0x61, 0x62, 0x63])) =
      some { State.reset with cpos := 7, sha1 := { h := sha1Iv, nbits := 24, buf := [0x61, 0x62, 0x63] } } := by decide +kernel

/-- Section 1.2: a block of 64 zero bytes from the IV. -/
theorem test_absorbSha1_block :
    (nextOf (exec (.absorbSha1 (List.replicate 65 0)) State.reset)).map (·.sha1) =
      some { h := { a := 0x92b404e5, b := 0x56588ced, c := 0x6c1acd4e, d := 0xbf053f68, e := 0x09f73a93 }, nbits := 520, buf := [0] } := by
  decide +kernel

/-- Section 1.4, n = 0. -/
theorem test_finalizeSha1_empty :
    (nextOf (step (supplied [0x00, 0x00, 0x00, 0x31]))).map (·.out) =
      some [0xda, 0x39, 0xa3, 0xee, 0x5e, 0x6b, 0x4b, 0x0d, 0x32, 0x55, 0xbf, 0xef, 0x95, 0x60, 0x18, 0x90, 0xaf, 0xd8, 0x07, 0x09] := by
  decide +kernel

/-- Section 1.4, n = 56: two blocks. -/
theorem test_finalizeSha1_two_blocks :
    (nextOf (exec .finalizeSha1 { State.reset with sha1 :=
      { h := sha1Iv, nbits := 448, buf := (List.range 56).map fun i => BitVec.ofNat 8 (7 * i + 1) } })).map (·.out) =
      some [0x83, 0xb9, 0xfc, 0xb6, 0xd3, 0xe3, 0xb2, 0x0f, 0x37, 0x6a, 0xb9, 0x89, 0xa1, 0xb6, 0x35, 0x3b, 0xcc, 0x6c, 0x0f, 0x44] := by
  decide +kernel

theorem test_initSha3 :
    nextOf (step { supplied [0x00, 0x00, 0x00, 0x12] with sha3 := { a := Vector.replicate 25 7, buf := [0x61] } }) =
      some { State.reset with cpos := 4 } := by decide +kernel

/-- R214's example. -/
theorem test_absorbSha3 :
    nextOf (step (supplied [0x03, 0x00, 0x00, 0x22, 0x61, 0x62, 0x63])) =
      some { State.reset with cpos := 7, sha3 := { a := zeroLanes, buf := [0x61, 0x62, 0x63] } } := by decide +kernel

/-- R6, R230: a block of another leaf, with 8 rate bytes, applies that leaf once to the folded block. -/
theorem test_absorbSha3_external :
    (nextOf (exec (.absorbSha3 [1, 2, 3, 4, 5, 6, 7, 8, 9]) externalState)).map (fun t => (t.sha3.a, t.sha3.buf)) =
      some (Config.externalLeaf (keccakFold 8 zeroLanes [1, 2, 3, 4, 5, 6, 7, 8]), [9]) := by rfl

/-- Section 3.2, the empty message. -/
theorem test_finalizeSha3_empty :
    (nextOf (step (supplied [0x00, 0x00, 0x00, 0x32]))).map (·.out) =
      some [0xa7, 0xff, 0xc6, 0xf8, 0xbf, 0x1e, 0xd7, 0x66, 0x51, 0xc1, 0x47, 0x56, 0xa0, 0x61, 0xd6, 0x62, 0xf5, 0x80, 0xff, 0x4d, 0xe4,
        0x3b, 0x49, 0xfa, 0x82, 0xd8, 0x0a, 0x4b, 0x80, 0xf8, 0x43, 0x4a] := by
  decide +kernel

/-- R215's corner: one padding byte takes both markers. -/
theorem test_sha3_single_padding_byte :
    (sha3PadBlock sha3_256 (List.replicate 135 0x11)).drop 134 = [0x11, 0x86] := by decide +kernel

/-- R168's example. -/
theorem test_initGost94 :
    nextOf (step (supplied ([0xa0, 0x00, 0x00, 0x13] ++ testPayload))) =
      some { State.reset with cpos := 164, gost := testGost } := by decide +kernel

/-- Section 4.3: payload byte 17 is 0x10. -/
theorem test_initGost94_malformed :
    (nextOf (step (supplied ([0xa0, 0x00, 0x00, 0x13] ++ testPayload.set 17 0x10)))).map (fun t => (t.fault, t.out, t.cpos)) =
      some (0x04, [], 164) := by decide +kernel

/-- R169's example; H is R162's. -/
theorem test_absorbGost94_block :
    (nextOf (exec (.absorbGost94 [0x54, 0x68, 0x69, 0x73, 0x20, 0x69, 0x73, 0x20, 0x6d, 0x65, 0x73, 0x73, 0x61, 0x67, 0x65, 0x2c,
      0x20, 0x6c, 0x65, 0x6e, 0x67, 0x74, 0x68, 0x3d, 0x33, 0x32, 0x20, 0x62, 0x79, 0x74, 0x65, 0x73]) (gostState []))).map
      (fun t => (t.gost.h.toList.take 4, t.gost.n.w0, t.gost.sigma.w3, t.gost.buf)) =
      some ([0x34, 0xc0, 0x15, 0x33], 0x100, 0x7365747962203233, []) := by decide +kernel

/-- Program P4a. -/
theorem test_absorbGost94_unconfigured :
    (nextOf (step (supplied [0x01, 0x00, 0x00, 0x23, 0x61, 0x00, 0x00, 0x00, 0x31]))).map (fun t => (t.fault, t.cpos, t.cmd)) =
      some (0x03, 5, [0x00, 0x00, 0x00, 0x31]) := by decide +kernel

/-- Section 2.3, TEST, the empty message. -/
theorem test_finalizeGost94_empty :
    (nextOf (step (gostState [0x00, 0x00, 0x00, 0x33]))).map (fun t => t.out.take 8) =
      some [0xce, 0x85, 0xb9, 0x9c, 0xc4, 0x67, 0x52, 0xff] := by decide +kernel

/-- Program P7: the 32nd byte completes the block that overflows. -/
theorem test_absorbGost94_overflow :
    (nextOf (exec (.absorbGost94 [0]) (edgeState (List.replicate 31 0)))).map (fun t => (t.fault, t.out)) = some (0x01, []) := by
  decide +kernel

/-- Program P4b: an illegal header is four bytes. -/
theorem test_step_illegal :
    (nextOf (step (supplied [0x00, 0x00, 0x01, 0x21, 0x61]))).map (fun t => (t.fault, t.cmd, t.cpos)) = some (0x02, [0x61], 4) := by
  decide +kernel

/-- Program P6. -/
theorem test_step_stuck :
    nextOf (step (supplied [0x04, 0x00, 0x00, 0x21, 0x61, 0x62])) = some (supplied [0x04, 0x00, 0x00, 0x21, 0x61, 0x62]) := by
  decide +kernel

/-- Section 4.3, last row. -/
theorem test_step_halted : nextOf (step haltedState) = some haltedState := by decide +kernel

/-- The fetch word runs as the first instruction after reset. -/
theorem test_withFetchWord :
    (nextOf (step (State.reset.withFetchWord 32 0x21000003))).map (·.sha1) = some { h := sha1Iv, nbits := 24, buf := [0, 0, 0] } := by
  decide +kernel

/-- R90, R91. -/
theorem test_assembler :
    assembleLine "digest.sha1 hex:00fF ; x" = some [.initSha1, .absorbSha1 [0x00, 0xff], .finalizeSha1] ∧
    assembleLine "NOP" = some [.absorbSha1 []] ∧ assembleLine "INIT.GOST94 sbox=TEST iv=ZERO" = some [.initGost94 testPayload] := by
  decide +kernel

/-! ### Witnesses: the hypotheses of each statement are met -/

theorem witness_EncodedCommandDecodesToItself : (Instr.initGost94 testPayload).wellFormed = true := by decide +kernel

theorem witness_DecodedBytesAreTheEncoding : decode [0x01, 0x00, 0x00, 0x22, 0x61, 0x62] = .command (.absorbSha3 [0x61]) := by decide +kernel

theorem witness_EveryHeaderIsOneRowOrIllegal :
    ∃ r₁ r₂, r₁ ∈ opcodeRows ∧ r₂ ∈ opcodeRows ∧ r₁.selects 0x2100FFFF = true ∧ r₂.selects 0x2100FFFF = true :=
  ⟨_, _, List.mem_of_getElem (i := 3) (h := by decide) rfl, List.mem_of_getElem (i := 3) (h := by decide) rfl, by decide, by decide⟩

theorem witness_LaterBytesDoNotChangeACommand :
    decode [0x00, 0x00, 0x00, 0x31] = .command .finalizeSha1 ∧ decode [0x00, 0x00, 0x01, 0x31] = .illegal .reservedBits := by decide +kernel

theorem witness_PackingsAreInverse : ([1, 2, 3, 0xff] : List Byte).length = 4 ∧ ([1, 2, 3, 4, 5, 6, 7, 0xff] : List Byte).length = 8 := by
  decide +kernel

theorem witness_StepExecutesTheDecodedCommand :
    (supplied [0x00, 0x00, 0x00, 0x31]).fault = 0 ∧ decode (supplied [0x00, 0x00, 0x00, 0x31]).cmd = .command .finalizeSha1 := by decide +kernel

theorem witness_HaltedCoreChangesNothing : haltedState.fault ≠ 0 := by decide +kernel

theorem witness_StuckCoreChangesNothing_header :
    (supplied [0x04, 0x00, 0x00]).fault = 0 ∧ (supplied [0x04, 0x00, 0x00]).cmd.length < 4 := by decide +kernel

theorem witness_StuckCoreChangesNothing_payload :
    (supplied [0x01, 0x00, 0x00, 0x21]).fault = 0 ∧
    decodeHeader (le32 ((supplied [0x01, 0x00, 0x00, 0x21]).cmd.take 4)) = .ok { op := .absorb, eng := .sha1, len := 1 } ∧
    (supplied [0x01, 0x00, 0x00, 0x21]).cmd.length < 4 + 1 := ⟨by decide +kernel, by rfl, by decide +kernel⟩

theorem witness_IllegalHeaderRaisesIllegalCmd :
    (supplied [0x01, 0x00, 0x00, 0x31]).fault = 0 ∧ 4 ≤ (supplied [0x01, 0x00, 0x00, 0x31]).cmd.length ∧
    decodeHeader (le32 ((supplied [0x01, 0x00, 0x00, 0x31]).cmd.take 4)) = .error .badLen := ⟨by decide +kernel, by decide +kernel, by rfl⟩

theorem witness_StepConsumesFromTheFront : (nextOf (step (supplied [0x00, 0x00, 0x00, 0x11]))).isSome = true := by decide +kernel

theorem witness_OnlyFinalizeAppendsToOut :
    (nextOf (step (supplied [0x00, 0x00, 0x00, 0x31]))).map (·.out.length) = some 20 := by decide +kernel

theorem witness_FaultIsStickyForEver : haltedState.fault ≠ 0 := by decide +kernel

theorem witness_BufferDispatchesWholeBlocksThenOnePadded : 0 < 32 := by decide +kernel

theorem witness_Sha1ScheduleFollowsTheRecurrence : 15 < 16 ∧ 16 ≤ 16 ∧ 79 < 80 := by decide +kernel

theorem witness_AbsorbSha1CompressesTheWholeBlocks : ({ State.reset.sha1 with buf := List.replicate 63 0 } : Sha1Ctx).pos < 64 := by decide +kernel

theorem witness_FinalizeSha1AppendsThePaddedDigest : ({ State.reset.sha1 with buf := List.replicate 63 0 } : Sha1Ctx).pos < 64 := by decide +kernel

theorem witness_Sha1DigestIgnoresChunking : State.reset.sha1 = Sha1Ctx.initial := rfl

theorem witness_KeccakFoldXorsTheRateBytes :
    136 % 8 = 0 ∧ 136 ≤ 200 ∧ (List.replicate 136 (0x11 : Byte)).length = 136 ∧ (135 : Fin 200).val < 136 ∧ ¬ (136 : Fin 200).val < 136 := by
  decide +kernel

theorem witness_KeccakRoundFollowsTheFiveSteps : 4 < 5 ∧ 0 < 5 := by decide +kernel

theorem witness_SqueezeGivesTheRateBytesThenPermutes : 8 ≤ 136 ∧ 136 ≤ 192 ∧ 136 ≤ 136 ∧ 136 < 137 := by decide +kernel

theorem witness_AbsorbSha3AbsorbsTheWholeBlocks :
    State.reset.sha3.pos < State.reset.params.rate ∧ externalState.sha3.pos < externalState.params.rate := by decide +kernel

theorem witness_FinalizeSha3AppendsTheSqueezedDigest :
    ({ State.reset.sha3 with buf := List.replicate 135 0 } : Sha3Ctx).pos < State.reset.params.rate := by decide +kernel

theorem witness_Sha3DigestIgnoresChunking : State.reset.sha3 = Sha3Ctx.initial := rfl

theorem witness_EncryptIsInjectiveForEveryKey :
    (List.replicate 8 (0 : Byte)).length = 8 ∧
    gostEncrypt testSBox zero32 (List.replicate 8 0) = gostEncrypt testSBox zero32 (List.replicate 8 0) := ⟨by decide +kernel, rfl⟩

theorem witness_AccumulatorsCountBitsAndSumBlocks :
    (1 ≤ 32 ∧ 32 ≤ 32 ∧ 2 ^ 256 ≤ nearlyFull.value + 8 * 32) ∧ (1 ≤ 31 ∧ 31 ≤ 32 ∧ nearlyFull.value + 8 * 31 < 2 ^ 256) ∧
    (List.replicate 32 (0xff : Byte)).length = 32 := by decide +kernel

theorem witness_InitGost94LoadsTheConfiguration :
    testPayload.length = 160 ∧ ∀ j, j < 128 → (testPayload.getD j 0).toNat ≤ 15 := by decide +kernel

theorem witness_MalformedSBoxRaisesConfigMalformed :
    State.reset.fault = 0 ∧ 127 < 128 ∧ 15 < ((testPayload.set 127 0x10).getD 127 0).toNat := by decide +kernel

theorem witness_AbsorbGost94CompressesTheWholeBlocks :
    (gostState []).gost.cfg = true ∧ (gostState []).gost.pos < 32 ∧
    (gostState []).gost.n.value + 256 * (((gostState []).gost.buf ++ List.replicate 33 0).length / 32) < 2 ^ 256 := by decide +kernel

theorem witness_FinalizeGost94AppendsTheDigest :
    (edgeState (List.replicate 31 0)).gost.cfg = true ∧ (edgeState (List.replicate 31 0)).gost.pos < 32 ∧
    (edgeState (List.replicate 31 0)).gost.n.value + 8 * (edgeState (List.replicate 31 0)).gost.pos < 2 ^ 256 := by decide +kernel

theorem witness_UnconfiguredGost94RaisesUnconfigured :
    State.reset.fault = 0 ∧ State.reset.gost.cfg = false ∧ (Instr.absorbGost94 []).engine = .gost94 ∧
    (Instr.absorbGost94 []).op ≠ .init ∧ Instr.finalizeGost94.engine = .gost94 ∧ Instr.finalizeGost94.op ≠ .init := by decide +kernel

theorem witness_OverlongGost94RaisesLenOverflow_absorb :
    (edgeState (List.replicate 31 0)).fault = 0 ∧ (edgeState (List.replicate 31 0)).gost.cfg = true ∧
    (edgeState (List.replicate 31 0)).gost.pos < 32 ∧
    2 ^ 256 ≤ (edgeState (List.replicate 31 0)).gost.n.value +
      256 * (((edgeState (List.replicate 31 0)).gost.buf ++ [0]).length / 32) := by decide +kernel

/-- For FINALIZE the counter must be nearer to `2^256`: 8 bits below it, with one byte pending. -/
theorem witness_OverlongGost94RaisesLenOverflow_finalize :
    let s : State := { edgeState [0] with gost := { testGost with n := { nearlyFull with w0 := 0xFFFFFFFFFFFFFFF8 }, buf := [0] } }
    s.fault = 0 ∧ s.gost.cfg = true ∧ s.gost.pos < 32 ∧ 2 ^ 256 ≤ s.gost.n.value + 8 * s.gost.pos := by decide +kernel

theorem witness_Gost94DigestIgnoresChunking :
    (gostState []).gost.cfg = true ∧ (gostState []).gost = (gostState []).gost.restart ∧
    8 * ([[0x61], [], [0x62]] : List (List Byte)).flatten.length < 2 ^ 256 := by decide +kernel

theorem witness_DigestSizes :
    (nextOf (exec .finalizeSha1 State.reset)).isSome = true ∧ (nextOf (exec .finalizeSha3 State.reset)).isSome = true ∧
    (nextOf (exec .finalizeGost94 (gostState []))).map (·.fault) = some 0 := by decide +kernel

theorem witness_EmptyAbsorbChangesNothing :
    (gostState []).gost.cfg = true ∧ State.reset.gost.cfg = false ∧ State.reset.fault = 0 := by decide +kernel

theorem witness_FinalizeLeavesWhatInitLeaves :
    (nextOf (exec (.initGost94 testPayload) State.reset)).map (·.fault) = some 0 ∧
    (nextOf (execAll [.initGost94 testPayload, .absorbGost94 [0x61], .finalizeGost94] State.reset)).map (·.fault) = some 0 ∧
    (nextOf (exec .finalizeSha1 State.reset)).isSome = true ∧ (nextOf (exec .finalizeSha3 State.reset)).isSome = true := by decide +kernel

theorem witness_CommandLeavesOtherEnginesAlone :
    (nextOf (exec (.absorbSha1 [0x61]) State.reset)).map (·.fault) = some 0 ∧ Engine.sha3 ≠ (Instr.absorbSha1 [0x61]).engine := by
  decide +kernel

theorem witness_CommandReadsOnlyItsOwnEngine :
    sameContext .gost94 (gostState []) { gostState [] with out := [1], sha1 := { h := sha1Iv, nbits := 8, buf := [0] } } ∧
    (nextOf (exec .finalizeGost94 (gostState []))).isSome = true := ⟨rfl, by decide +kernel⟩

theorem witness_CommandsOfDifferentEnginesCommute :
    (Instr.absorbSha1 [0x61]).engine ≠ Instr.finalizeGost94.engine ∧ (Instr.absorbSha1 [0x61]).op ≠ .finalize ∧
    (nextOf (execAll [.absorbSha1 [0x61], .finalizeGost94] (gostState []))).map (·.fault) = some 0 := by decide +kernel

theorem witness_LongAbsorbIsSound :
    (nextOf (exec (absorbInstr .gost94 [0x61]) (gostState []))).map (·.fault) = some 0 := by decide +kernel

theorem witness_EveryStepKeepsTheStateLegal :
    (gostState [0x00, 0x00, 0x00, 0x12]).Inv ∧ (nextOf (step (gostState [0x00, 0x00, 0x00, 0x12]))).isSome = true := by
  refine ⟨⟨by decide +kernel, fun _ => ⟨?_, ?_, fun h => absurd h (by decide)⟩⟩, by decide +kernel⟩
  · exact ⟨by decide +kernel, by decide +kernel, by decide +kernel⟩
  · exact ⟨by decide +kernel, by decide +kernel⟩

/-- Two commands before any INIT.GOST94: FINALIZE.SHA1, which outputs, and FINALIZE.GOST94, which the context with other values of
the unspecified fields must refuse in the same way. -/
theorem witness_UnspecifiedGostStateIsNeverSeen :
    let s := supplied [0x00, 0x00, 0x00, 0x31, 0x00, 0x00, 0x00, 0x33]
    let s' := s.withUnspecified gostC3 gostC3 testSBox
    s ≠ s' ∧ s.gost.cfg = false ∧
    (nextOf (Sys2Proof.core.run 2 s)).map (fun t => (t.out.length, t.fault, t.cpos)) = some (20, 0x03, 8) ∧
    (nextOf (Sys2Proof.core.run 2 s')).map (fun t => (t.out.length, t.fault, t.cpos)) = some (20, 0x03, 8) := by
  decide +kernel

end Sys2Proof.Tests
end

section
/-! Proofs about 00_scope.md: the packing primitives of R8 are inverse to each other, and every step has a next state (R10). -/

namespace Sys2Proof.Machine

/-! ### `leValue` and `leBytes` undo each other -/

/-- Packing a number into `n` bytes keeps it modulo `256 ^ n`. -/
theorem leValue_leBytes (n v : Nat) : leValue (leBytes n v) = v % 256 ^ n := by
  induction n generalizing v with
  | zero => simp [leBytes, leValue, Nat.mod_one]
  | succ n ih =>
    have hsplit : v % 256 ^ (n + 1) = v % 256 + 256 * (v / 256 % 256 ^ n) := by
      rw [Nat.pow_succ', Nat.mod_mul]
    simp [leBytes, leValue, ih, hsplit]

theorem leValue_leBytes_of_lt {n v : Nat} (h : v < 256 ^ n) : leValue (leBytes n v) = v := by
  rw [leValue_leBytes, Nat.mod_eq_of_lt h]

theorem leBytes_leValue (b : List Byte) : leBytes b.length (leValue b) = b := by
  induction b with
  | nil => rfl
  | cons x xs ih =>
    have hlow : BitVec.ofNat 8 (x.toNat + 256 * leValue xs) = x := by
      apply BitVec.eq_of_toNat_eq
      have hx := x.isLt
      simp only [BitVec.toNat_ofNat]
      omega
    have hhigh : (x.toNat + 256 * leValue xs) / 256 = leValue xs := by
      have hx := x.isLt
      omega
    simp only [List.length_cons, leBytes, leValue, hlow, hhigh, ih]

/-! ### Words survive packing and unpacking, in both byte orders -/

@[simp] theorem le32_toLe32 (v : Word32) : le32 (toLe32 v) = v := by
  rw [le32, toLe32, leValue_leBytes_of_lt v.isLt, BitVec.ofNat_toNat, BitVec.setWidth_eq]

@[simp] theorem le64_toLe64 (v : Word64) : le64 (toLe64 v) = v := by
  rw [le64, toLe64, leValue_leBytes_of_lt v.isLt, BitVec.ofNat_toNat, BitVec.setWidth_eq]

/-- The big-endian packings are the little-endian ones of the reversed array. -/
theorem be32_eq_le32_reverse (b : List Byte) : be32 b = le32 b.reverse := rfl

theorem be64_eq_le64_reverse (b : List Byte) : be64 b = le64 b.reverse := rfl

theorem toBe32_eq_reverse_toLe32 (v : Word32) : toBe32 v = (toLe32 v).reverse := rfl

theorem toBe64_eq_reverse_toLe64 (v : Word64) : toBe64 v = (toLe64 v).reverse := rfl

@[simp] theorem be32_toBe32 (v : Word32) : be32 (toBe32 v) = v := by
  rw [be32_eq_le32_reverse, toBe32_eq_reverse_toLe32, List.reverse_reverse, le32_toLe32]

@[simp] theorem be64_toBe64 (v : Word64) : be64 (toBe64 v) = v := by
  rw [be64_eq_le64_reverse, toBe64_eq_reverse_toLe64, List.reverse_reverse, le64_toLe64]

/-! ### Byte arrays of the right length survive unpacking and packing, in both byte orders -/

/-- No byte of a four-byte array is lost in the word. -/
theorem le32_toNat (b : List Byte) (h : b.length = 4) : (le32 b).toNat = leValue b := by
  have hlt := leValue_lt b
  rw [h] at hlt
  exact Nat.mod_eq_of_lt hlt

/-- No byte of an eight-byte array is lost in the word. -/
theorem le64_toNat (b : List Byte) (h : b.length = 8) : (le64 b).toNat = leValue b := by
  have hlt := leValue_lt b
  rw [h] at hlt
  exact Nat.mod_eq_of_lt hlt

theorem toLe32_le32 (b : List Byte) (h : b.length = 4) : toLe32 (le32 b) = b := by
  rw [toLe32, le32_toNat b h, ← h, leBytes_leValue]

theorem toLe64_le64 (b : List Byte) (h : b.length = 8) : toLe64 (le64 b) = b := by
  rw [toLe64, le64_toNat b h, ← h, leBytes_leValue]

theorem toBe32_be32 (b : List Byte) (h : b.length = 4) : toBe32 (be32 b) = b := by
  rw [toBe32_eq_reverse_toLe32, be32_eq_le32_reverse, toLe32_le32 b.reverse (by simpa using h), List.reverse_reverse]

theorem toBe64_be64 (b : List Byte) (h : b.length = 8) : toBe64 (be64 b) = b := by
  rw [toBe64_eq_reverse_toLe64, be64_eq_le64_reverse, toLe64_le64 b.reverse (by simpa using h), List.reverse_reverse]

/-- Settles O7: `leBytes` and `leValue` undo each other, and reversing twice changes nothing. -/
theorem packingsAreInverse : Obligations.PackingsAreInverse :=
  ⟨fun v => ⟨le32_toLe32 v, be32_toBe32 v⟩, fun v => ⟨le64_toLe64 v, be64_toBe64 v⟩,
    fun b h => ⟨toLe32_le32 b h, toBe32_be32 b h⟩, fun b h => ⟨toLe64_le64 b h, toBe64_be64 b h⟩⟩

/-! ### Every step has a next state -/

/-- A command of any engine has a next state: each of its faults is one (R245). -/
theorem exec_has_next (i : Instr) (s : State) : ∃ t, exec i s = .next t := by
  cases he : i.engine with
  | sha1 =>
    obtain ⟨c, d, hexec⟩ := exec_sha1_shape i s he
    exact ⟨_, hexec⟩
  | sha3 =>
    obtain ⟨c, d, hexec⟩ := exec_sha3_shape i s he
    exact ⟨_, hexec⟩
  | gost94 =>
    obtain ⟨f, hfault⟩ | ⟨c, d, hexec⟩ := exec_gost94_shape i s he
    · exact ⟨_, hfault⟩
    · exact ⟨_, hexec⟩

/-- Settles O50, by what a step can do. That a halted or a stuck CORE has a next state, the one it is in, is the model's choice
(assumption log 5). -/
theorem everyStepHasANextState : Obligations.EveryStepHasANextState := by
  intro s
  obtain hidle | ⟨-, -, hillegal⟩ | ⟨-, i, -, hcommand⟩ := step_cases s
  · exact ⟨_, hidle⟩
  · exact ⟨_, hillegal⟩
  · rw [hcommand]
    exact exec_has_next i _

end Sys2Proof.Machine
end

section
/-! Proofs about 10_state.md: a Block Buffer with a legal cursor (R35), and the commands of SHA-1 and SHA-3 on it. -/

namespace Sys2Proof.Machine

/-! ### The Block Buffer and the message blocks of R103 -/

theorem blocksOf_of_short {n : Nat} {m : List Byte} (h : m.length < n) : blocksOf n m = [] := by
  simp [blocksOf, Nat.div_eq_of_lt h]

theorem residue_of_short {n : Nat} {m : List Byte} (h : m.length < n) : residue n m = m := by
  simp [residue, Nat.div_eq_of_lt h]

theorem blocksOf_length (n : Nat) (m : List Byte) : (blocksOf n m).length = m.length / n := by
  simp [blocksOf]

/-- A whole block in front of a message is its first block. -/
theorem blocksOf_append_of_length {n : Nat} {blk : List Byte} (hn : 0 < n) (h : blk.length = n) (m : List Byte) :
    blocksOf n (blk ++ m) = blk :: blocksOf n m := by
  have hcount : (blk ++ m).length / n = m.length / n + 1 := by
    rw [List.length_append, h, Nat.add_comm, Nat.add_div_right _ hn]
  have hfirst : slice (blk ++ m) (n * 0) (n * 0 + n) = blk := by simp [slice, ← h]
  have hlater (i : Nat) : slice (blk ++ m) (n * (i + 1)) (n * (i + 1) + n) = slice m (n * i) (n * i + n) := by
    have hstart : n * (i + 1) = blk.length + n * i := by rw [h]; ring
    have hsize : blk.length + n * i + n - (blk.length + n * i) = n * i + n - n * i := by omega
    rw [slice, hstart, List.drop_length_add_append, hsize, slice]
  simp only [blocksOf, hcount, List.range_succ_eq_map, List.map_cons, List.map_map, hfirst]
  exact congrArg (blk :: ·) (List.map_congr_left fun i _ => hlater i)

theorem residue_append_of_length {n : Nat} {blk : List Byte} (hn : 0 < n) (h : blk.length = n) (m : List Byte) :
    residue n (blk ++ m) = residue n m := by
  have hcount : n * ((blk ++ m).length / n) = blk.length + n * (m.length / n) := by
    rw [List.length_append, h, Nat.add_comm, Nat.add_div_right _ hn]; ring
  rw [residue, hcount, List.drop_length_add_append, residue]

theorem blocksOf_self {n : Nat} {blk : List Byte} (hn : 0 < n) (h : blk.length = n) : blocksOf n blk = [blk] := by
  simpa [blocksOf_of_short (m := []) hn] using blocksOf_append_of_length hn h []

/-- The Block Buffer with a legal cursor (R35) dispatches the whole blocks of the pending and new bytes in order and keeps the
rest (R101, R103). -/
theorem bufAbsorb_eq_blocks {σ : Type} {size : Nat} (block : σ → List Byte → σ) (buf : List Byte) (x : σ) (p : List Byte)
    (h : buf.length < size) :
    bufAbsorb size block buf x p = (residue size (buf ++ p), (blocksOf size (buf ++ p)).foldl block x) := by
  induction p generalizing buf x with
  | nil => simp [blocksOf_of_short h, residue_of_short h]
  | cons d ds ih =>
    have hpos : 0 < size := by omega
    rw [List.append_cons]
    by_cases hfull : buf.length + 1 = size
    · have hlen : (buf ++ [d]).length = size := by simpa using hfull
      rw [bufAbsorb_cons_full size block buf x d ds hfull, ih [] _ hpos, List.nil_append,
        blocksOf_append_of_length hpos hlen, residue_append_of_length hpos hlen, List.foldl_cons]
    · rw [bufAbsorb_cons_pending size block buf x d ds (by omega), ih _ x (by simp; omega)]

/-! ### ABSORB of SHA-1 and SHA-3 -/

/-- Settles O20: the Block Buffer dispatches the whole blocks, and adding words is adding numbers modulo `2^64`. -/
theorem absorbSha1CompressesTheWholeBlocks : Obligations.AbsorbSha1CompressesTheWholeBlocks := by
  intro p s hpos
  have hbits : s.sha1.nbits + BitVec.ofNat 64 (8 * p.length) = BitVec.ofNat 64 (s.sha1.nbits.toNat + 8 * p.length) := by
    rw [BitVec.ofNat_add, BitVec.ofNat_toNat, BitVec.setWidth_eq]
  simp only [exec, execAbsorbSha1, Sha1Ctx.absorb, sha1Block, hbits, bufAbsorb_eq_blocks _ _ _ _ hpos]

/-- Settles O27: the Block Buffer dispatches the whole blocks, and each is folded and permuted. -/
theorem absorbSha3AbsorbsTheWholeBlocks : Obligations.AbsorbSha3AbsorbsTheWholeBlocks := by
  intro p s hpos
  simp only [exec, execAbsorbSha3, Sha3Ctx.absorb, bufAbsorb_eq_blocks _ _ _ _ hpos]
  rfl

/-! ### FINALIZE.SHA1: the padding -/

/-- Up to 55 pending bytes, mark and length field fit the pending block. -/
theorem sha1Pad_of_fits {m : List Byte} (len : Word64) (h : m.length ≤ 55) :
    sha1Pad m len = zeroFill 56 (m ++ [0x80]) ++ toBe64 len := by
  have hzeros : (119 - m.length % 64) % 64 = 56 - (m ++ [0x80]).length := by
    simp only [List.length_append, List.length_singleton]; omega
  rw [sha1Pad, zeroFill, hzeros]

/-- From 56 pending bytes on, the length field needs a block of its own. -/
theorem sha1Pad_of_overflows {m : List Byte} (len : Word64) (hlow : 56 ≤ m.length) (hhigh : m.length < 64) :
    sha1Pad m len = zeroFill 64 (m ++ [0x80]) ++ (zeroFill 56 [] ++ toBe64 len) := by
  have hzeros : (119 - m.length % 64) % 64 = (64 - (m ++ [0x80]).length) + 56 := by
    simp only [List.length_append, List.length_singleton]; omega
  simp only [sha1Pad, zeroFill, hzeros, List.replicate_add, List.append_assoc, List.nil_append, List.length_nil]

/-- Steps 2 and 3 of R198 with up to 55 pending bytes: the mark is only appended. -/
theorem sha1MakeRoom_mark_of_fits {m : List Byte} (h : Sha1Words) (hm : m.length ≤ 55) :
    sha1Mark m h = (m ++ [0x80], h) ∧ sha1MakeRoom (m ++ [0x80]) h = (m ++ [0x80], h) := by
  constructor
  · rw [sha1Mark, bufAbsorb_cons_pending _ _ _ _ _ _ (by simp only [sha1Block]; omega), bufAbsorb_nil]
  · simp only [sha1MakeRoom, List.length_append, List.length_singleton]
    exact if_neg (by omega)

/-- Steps 2 and 3 of R198 from 56 pending bytes on: the marked block, zero-filled, is compressed. -/
theorem sha1MakeRoom_mark_of_overflows {m : List Byte} (h : Sha1Words) (hlow : 56 ≤ m.length) (hhigh : m.length < 64) :
    sha1MakeRoom (sha1Mark m h).1 (sha1Mark m h).2 = ([], sha1Compress h (zeroFill 64 (m ++ [0x80]))) := by
  by_cases hfull : m.length + 1 = sha1Block
  · rw [sha1Mark, bufAbsorb_cons_full _ _ _ _ _ _ hfull, bufAbsorb_nil]
    have hzeros : 64 - (m ++ [0x80]).length = 0 := by
      simp only [List.length_append, List.length_singleton]
      exact Nat.sub_eq_zero_of_le hfull.ge
    rw [zeroFill, hzeros, List.replicate_zero, List.append_nil]
    rfl
  · rw [sha1Mark, bufAbsorb_cons_pending _ _ _ _ _ _ (by simp only [sha1Block] at hfull ⊢; omega), bufAbsorb_nil]
    simp only [sha1MakeRoom, List.length_append, List.length_singleton]
    exact if_pos (by omega)

/-- The pending bytes' padding (R198) is compressed block by block. -/
theorem sha1FinalState_eq_pad (c : Sha1Ctx) (h : c.pos < 64) :
    c.finalState = (blocksOf 64 (sha1Pad c.buf c.nbits)).foldl sha1Compress c.h := by
  have hlast {b : List Byte} (hb : b.length ≤ 56) : (zeroFill 56 b ++ toBe64 c.nbits).length = 64 := by
    rw [List.length_append, zeroFill_length 56 b hb, toBe64_length]
  by_cases hfits : c.buf.length ≤ 55
  · obtain ⟨hmark, hroom⟩ := sha1MakeRoom_mark_of_fits c.h hfits
    have hblk := hlast (b := c.buf ++ [0x80]) (by simp; omega)
    simp only [Sha1Ctx.finalState, hmark, hroom, sha1LastBlock, sha1Pad_of_fits _ hfits, blocksOf_self (by decide) hblk,
      List.foldl_cons, List.foldl_nil]
  · have hblk : (zeroFill 64 (c.buf ++ [0x80])).length = 64 := zeroFill_length _ _ (by simp; omega)
    simp only [Sha1Ctx.finalState, sha1MakeRoom_mark_of_overflows c.h (m := c.buf) (by omega) h, sha1LastBlock,
      sha1Pad_of_overflows _ (m := c.buf) (by omega) h, blocksOf_append_of_length (by decide) hblk,
      blocksOf_self (by decide) (hlast (b := []) (by simp)), List.foldl_cons, List.foldl_nil]

/-- Settles O21: the digest is that of the padded pending bytes. -/
theorem finalizeSha1AppendsThePaddedDigest : Obligations.FinalizeSha1AppendsThePaddedDigest := by
  intro s hpos
  simp only [exec, execFinalizeSha1, sha1FinalState_eq_pad _ hpos, outWrite]

/-! ### FINALIZE.SHA3: the padding block -/

theorem modify_append_cons (l r : List Byte) (b : Byte) (f : Byte → Byte) :
    (l ++ b :: r).modify l.length f = l ++ f b :: r := by
  induction l with
  | nil => rfl
  | cons x xs ih => rw [List.cons_append, List.length_cons, List.modify_succ_cons, ih, List.cons_append]

/-- Zero fill, domain byte and end marker make the padding of R215, also where both meet in the last byte. -/
theorem sha3PadBlock_eq_pad (params : Sha3Params) (buf : List Byte) (h : buf.length < params.rate) :
    sha3PadBlock params buf = sha3Pad params buf := by
  obtain ⟨k, hk⟩ : ∃ k, params.rate = buf.length + (k + 1) := ⟨params.rate - buf.length - 1, by omega⟩
  have hfill : zeroFill params.rate buf = buf ++ 0 :: List.replicate k 0 := by
    rw [zeroFill, hk, Nat.add_sub_cancel_left, List.replicate_succ]
  have hq : params.rate - buf.length % params.rate = k + 1 := by rw [Nat.mod_eq_of_lt h]; omega
  have hds : 0 ^^^ params.ds = params.ds := BitVec.zero_xor
  rw [sha3PadBlock, hfill, modify_append_cons, hds, sha3Pad, hq]
  cases k with
  | zero =>
    have hend : params.rate - 1 = buf.length := by omega
    simp [hend, modify_append_cons]
  | succ j =>
    have hend : params.rate - 1 = (buf ++ params.ds :: List.replicate j 0).length := by simp; omega
    have hsplit : buf ++ params.ds :: List.replicate (j + 1) 0 = (buf ++ params.ds :: List.replicate j 0) ++ 0 :: [] := by
      rw [List.replicate_succ']; simp
    rw [hsplit, hend, modify_append_cons]
    simp

theorem sha3Pad_length (params : Sha3Params) (buf : List Byte) (h : buf.length < params.rate) :
    (sha3Pad params buf).length = params.rate := by
  rw [← sha3PadBlock_eq_pad params buf h, sha3PadBlock, List.length_modify, List.length_modify,
    zeroFill_length _ _ (Nat.le_of_lt h)]

/-- Settles O28: the padding block is the padding of R215, one block long. -/
theorem finalizeSha3AppendsTheSqueezedDigest : Obligations.FinalizeSha3AppendsTheSqueezedDigest := by
  intro s hpos
  refine ⟨sha3Pad_length _ _ hpos, ?_⟩
  simp only [exec, execFinalizeSha3, Sha3Ctx.finalState, keccakAbsorbBlock, sha3PadBlock_eq_pad _ _ hpos, outWrite]

end Sys2Proof.Machine
end

section
/-! Proofs about 10_state.md: the 256-bit accumulators (R28, R29), and the message commands of GOST94. -/

namespace Sys2Proof.Machine

/-! ### The 256-bit accumulators -/

@[simp] theorem blockSum_nil : blockSum [] = 0 := rfl

@[simp] theorem blockSum_cons (blk : List Byte) (blks : List (List Byte)) :
    blockSum (blk :: blks) = leValue blk + blockSum blks := rfl

theorem addWord_exact (x y : Word64) (c : Nat) :
    (addWord x y c).1.toNat + 2 ^ 64 * (addWord x y c).2 = x.toNat + y.toNat + c := by
  simp only [addWord, BitVec.toNat_ofNat]
  exact Nat.mod_add_div _ _

theorem quad_value_lt (q : Quad) : q.value < 2 ^ 256 := by
  have h0 := q.w0.isLt
  have h1 := q.w1.isLt
  have h2 := q.w2.isLt
  have h3 := q.w3.isLt
  simp only [Quad.value]
  omega

theorem quad_value_mod (q : Quad) : q.value % 2 ^ 256 = q.value := Nat.mod_eq_of_lt (quad_value_lt q)

/-- The carries between the words cancel; only the carry out of word 3 is left (R163). -/
theorem add256_value (x y : Quad) : (add256 x y).1.value + 2 ^ 256 * (add256 x y).2 = x.value + y.value := by
  have h0 := addWord_exact x.w0 y.w0 0
  have h1 := addWord_exact x.w1 y.w1 (addWord x.w0 y.w0 0).2
  have h2 := addWord_exact x.w2 y.w2 (addWord x.w1 y.w1 (addWord x.w0 y.w0 0).2).2
  have h3 := addWord_exact x.w3 y.w3 (addWord x.w2 y.w2 (addWord x.w1 y.w1 (addWord x.w0 y.w0 0).2).2).2
  simp only [add256, Quad.value]
  omega

theorem add256_carry (x y : Quad) : (add256 x y).2 = if x.value + y.value < 2 ^ 256 then 0 else 1 := by
  have hsum := add256_value x y
  have hx := quad_value_lt x
  have hy := quad_value_lt y
  have hz := quad_value_lt (add256 x y).1
  split <;> omega

theorem add256_value_mod (x y : Quad) : (add256 x y).1.value = (x.value + y.value) % 2 ^ 256 := by
  have hsum := add256_value x y
  have hz := quad_value_lt (add256 x y).1
  omega

/-- The length addend of R165 as a number. -/
theorem lengthAddend_value {r : Nat} (h : r ≤ 32) :
    (Quad.mk (BitVec.ofNat 64 (8 * r)) 0 0 0).value = 8 * r := by
  have hzero : (0 : Word64).toNat = 0 := rfl
  simp only [Quad.value, BitVec.toNat_ofNat, hzero]
  omega

theorem lenAdd_of_overflow {n : Quad} {r : Nat} (hr : r ≤ 32) (h : 2 ^ 256 ≤ n.value + 8 * r) :
    lenAdd n r = .error .lenOverflow := by
  have hcarry := add256_carry n ⟨BitVec.ofNat 64 (8 * r), 0, 0, 0⟩
  rw [lengthAddend_value hr, if_neg (by omega)] at hcarry
  exact if_pos hcarry

/-- Without an overflow the length is the exact sum (R165). -/
theorem lenAdd_of_fits {n : Quad} {r : Nat} (hr : r ≤ 32) (h : n.value + 8 * r < 2 ^ 256) :
    ∃ z, lenAdd n r = .ok z ∧ z.value = n.value + 8 * r := by
  have hcarry := add256_carry n ⟨BitVec.ofNat 64 (8 * r), 0, 0, 0⟩
  have hvalue := add256_value_mod n ⟨BitVec.ofNat 64 (8 * r), 0, 0, 0⟩
  rw [lengthAddend_value hr] at hcarry hvalue
  rw [if_pos h] at hcarry
  rw [Nat.mod_eq_of_lt h] at hvalue
  exact ⟨_, if_neg (by rw [hcarry]; decide), hvalue⟩

theorem lenAdd_ok_value {n z : Quad} {r : Nat} (hr : r ≤ 32) (h : lenAdd n r = .ok z) : z.value = n.value + 8 * r := by
  by_cases hfits : n.value + 8 * r < 2 ^ 256
  · obtain ⟨z', hok, hvalue⟩ := lenAdd_of_fits hr hfits
    rw [h] at hok
    cases hok
    exact hvalue
  · rw [lenAdd_of_overflow hr (by omega)] at h
    exact absurd h (by simp)

/-! ### Blocks as 256-bit numbers -/

/-- Four word64 hold all of a 32-byte block (R65). -/
theorem quadOfBlock_value {blk : List Byte} (h : blk.length = 32) : (quadOfBlock blk).value = leValue blk := by
  have hword (i : Nat) (hi : i + 8 ≤ 32) : (le64 (slice blk i (i + 8))).toNat = leValue (slice blk i (i + 8)) :=
    le64_toNat _ (by rw [slice_length _ _ _ (by omega)]; omega)
  have hlen (i : Nat) (hi : i + 8 ≤ 32) : (slice blk i (i + 8)).length = 8 := by
    rw [slice_length _ _ _ (by omega)]; omega
  have hsplit : blk = slice blk 0 8 ++ (slice blk 8 16 ++ (slice blk 16 24 ++ slice blk 24 32)) := by
    have hlast : slice blk 24 32 = blk.drop 24 := List.take_of_length_le (by simp [h])
    have hstep (i : Nat) : blk.drop i = slice blk i (i + 8) ++ blk.drop (i + 8) := by
      rw [slice, Nat.add_sub_cancel_left, ← List.drop_drop, List.take_append_drop]
    rw [hlast, ← hstep 16, ← hstep 8, ← hstep 0, List.drop_zero]
  conv_rhs => rw [hsplit]
  rw [leValue_append, leValue_append, leValue_append, hlen 0 (by decide), hlen 8 (by decide), hlen 16 (by decide),
    ← hword 0 (by decide), ← hword 8 (by decide), ← hword 16 (by decide), ← hword 24 (by decide)]
  simp only [quadOfBlock, Quad.value, Nat.reduceAdd]
  omega

theorem sigmaAdd_value (sigma : Quad) {blk : List Byte} (h : blk.length = 32) :
    (sigmaAdd sigma blk).value = (sigma.value + leValue blk) % 2 ^ 256 := by
  rw [sigmaAdd, add256_value_mod, quadOfBlock_value h]

/-- Settles O35, by the exact sum with its carry. -/
theorem accumulatorsCountBitsAndSumBlocks : Obligations.AccumulatorsCountBitsAndSumBlocks :=
  ⟨fun _ _ _ hr => ⟨lenAdd_of_overflow hr, lenAdd_of_fits hr⟩, fun sigma _ h => sigmaAdd_value sigma h⟩

theorem quad_bytes_length (q : Quad) : q.bytes.length = 32 := by
  simp [Quad.bytes]

theorem leValue_toLe64 (v : Word64) : leValue (toLe64 v) = v.toNat := leValue_leBytes_of_lt v.isLt

theorem leValue_quad_bytes (q : Quad) : leValue q.bytes = q.value := by
  simp only [Quad.bytes, leValue_append, leValue_toLe64, List.length_append, toLe64_length, Quad.value]
  norm_num

/-- The serialization of R65 is that of the number. -/
theorem quad_bytes_eq_leBytes (q : Quad) : q.bytes = leBytes 32 q.value := by
  rw [← quad_bytes_length q, ← leValue_quad_bytes, leBytes_leValue]

/-- Zero bytes behind a little-endian number do not change it. -/
theorem leValue_zeroFill (n : Nat) (b : List Byte) : leValue (zeroFill n b) = leValue b := by
  have hzeros (k : Nat) : leValue (List.replicate k 0) = 0 := by
    induction k with
    | zero => rfl
    | succ k ih => rw [List.replicate_succ, leValue, ih]; rfl
  rw [zeroFill, leValue_append, hzeros, Nat.mul_zero, Nat.add_zero]

/-! ### ABSORB and FINALIZE of GOST94 -/

theorem dataBlock_of_lenAdd {c : GostCtx} {r : Nat} {n : Quad} (blk : List Byte) (h : lenAdd c.n r = .ok n) :
    c.dataBlock blk r = .ok { c with n := n, h := gostF c.sbox c.h (fixed 32 blk), sigma := sigmaAdd c.sigma blk } := by
  rw [GostCtx.dataBlock, h]

@[simp] theorem gostFold_nil (sbox : SBox) (h : Bytes32) : gostFold sbox h [] = h := rfl

@[simp] theorem gostFold_cons (sbox : SBox) (h : Bytes32) (blk : List Byte) (blks : List (List Byte)) :
    gostFold sbox h (blk :: blks) = gostFold sbox (gostF sbox h (fixed 32 blk)) blks := by
  rw [gostFold, List.foldl_cons, gostFold]

/-- Full blocks that the bit counter has room for are compressed, counted and summed (R166). -/
theorem gostFullBlocks_of_fits (blks : List (List Byte)) (c : GostCtx) (hlen : ∀ blk ∈ blks, blk.length = 32)
    (hfits : c.n.value + 256 * blks.length < 2 ^ 256) :
    ∃ n sigma : Quad,
      n.value = c.n.value + 256 * blks.length ∧ sigma.value = (c.sigma.value + blockSum blks) % 2 ^ 256 ∧
      blks.foldl gostFullBlock (.ok c) = .ok { c with h := gostFold c.sbox c.h blks, n := n, sigma := sigma } := by
  induction blks generalizing c with
  | nil =>
    refine ⟨c.n, c.sigma, rfl, ?_, ?_⟩
    · rw [blockSum_nil, Nat.add_zero, quad_value_mod]
    · rw [gostFold_nil, List.foldl_nil]
  | cons blk blks ih =>
    rw [List.length_cons] at hfits ⊢
    have hroom : c.n.value + 8 * 32 < 2 ^ 256 := lt_of_le_of_lt (by omega) hfits
    obtain ⟨n₁, hadd, hn₁⟩ := lenAdd_of_fits (r := 32) le_rfl hroom
    obtain ⟨n, sigma, hn, hsigma, hfold⟩ :=
      ih { c with n := n₁, h := gostF c.sbox c.h (fixed 32 blk), sigma := sigmaAdd c.sigma blk }
        (fun b hb => hlen b (List.mem_cons_of_mem _ hb)) (by simp only [hn₁]; omega)
    refine ⟨n, sigma, by simp only [hn, hn₁]; omega, ?_, ?_⟩
    · rw [hsigma, sigmaAdd_value c.sigma (hlen blk List.mem_cons_self), Nat.mod_add_mod, Nat.add_assoc, blockSum_cons]
    · rw [List.foldl_cons, gostFullBlock, gostCallback, dataBlock_of_lenAdd blk hadd, hfold, gostFold_cons]

theorem blocksOf_block_length {n : Nat} {m blk : List Byte} (h : blk ∈ blocksOf n m) : blk.length = n := by
  obtain ⟨i, hi, rfl⟩ := List.mem_map.mp h
  have hend : n * i + n ≤ m.length :=
    calc n * i + n = n * (i + 1) := by ring
      _ ≤ n * (m.length / n) := Nat.mul_le_mul_left n (List.mem_range.mp hi)
      _ ≤ m.length := Nat.mul_div_le _ _
  rw [slice_length _ _ _ hend, Nat.add_sub_cancel_left]

/-- `BufAbsorb(GOST, p)` with a legal cursor: the blocks of R103 through the callback, then the rest pending. -/
theorem gostAbsorb_eq_blocks (p : List Byte) (c : GostCtx) (h : c.pos < 32) :
    c.absorb p = gostRebuffer (residue 32 (c.buf ++ p), (blocksOf 32 (c.buf ++ p)).foldl gostFullBlock (.ok c)) := by
  rw [GostCtx.absorb, gostBlock, bufAbsorb_eq_blocks _ _ _ _ h]

/-- ABSORB.GOST94 on a configured context whose blocks raise no fault (R169). -/
theorem exec_absorbGost94_of_absorb {p : List Byte} {s : State} {c : GostCtx} (hcfg : s.gost.cfg = true)
    (habsorb : s.gost.absorb p = .ok c) : exec (.absorbGost94 p) s = .next { s with gost := c } := by
  simp only [exec, execAbsorbGost94, hcfg, habsorb, if_true]

/-- Settles O38: the Block Buffer dispatches the whole blocks, and the counter has room for all of them. -/
theorem absorbGost94CompressesTheWholeBlocks : Obligations.AbsorbGost94CompressesTheWholeBlocks := by
  intro p s hcfg hpos hfits
  obtain ⟨n, sigma, hn, hsigma, hfold⟩ :=
    gostFullBlocks_of_fits (blocksOf 32 (s.gost.buf ++ p)) s.gost (fun _ => blocksOf_block_length)
      (by rwa [blocksOf_length])
  rw [blocksOf_length] at hn
  refine ⟨n, sigma, hn, hsigma, ?_⟩
  have habsorb := gostAbsorb_eq_blocks p s.gost hpos
  rw [hfold, gostRebuffer] at habsorb
  exact exec_absorbGost94_of_absorb hcfg habsorb

/-- With an empty buffer `BufFinalize(GOST)` does nothing (R102). -/
theorem gostFlush_of_empty {c : GostCtx} (h : c.buf = []) : c.flush = .ok c := by
  have hfin : bufFinalize gostBlock gostCallback c.buf (.ok c) = (c.buf, .ok c) := if_pos (by rw [h]; rfl)
  rw [GostCtx.flush, hfin, gostRebuffer]

/-- With bytes pending `BufFinalize(GOST)` is the data block of the zero-filled bytes (R102, R106). -/
theorem gostFlush_of_pending {c : GostCtx} (h : c.buf ≠ []) :
    c.flush = gostRebuffer ([], c.dataBlock (zeroFill 32 c.buf) c.pos) := by
  have hfin : bufFinalize gostBlock gostCallback c.buf (.ok c) = ([], c.dataBlock (zeroFill 32 c.buf) c.pos) :=
    if_neg (by simpa using h)
  rw [GostCtx.flush, hfin]

/-- The blocks that `BufFinalize(GOST)` dispatches: the zero-filled pending block, if there is one (R102). -/
def GostCtx.lastBlocks (c : GostCtx) : List (List Byte) := if c.pos = 0 then [] else [zeroFill 32 c.buf]

/-- A flush that the bit counter has room for. -/
theorem gostFlush_of_fits (c : GostCtx) (hpos : c.pos < 32) (hfits : c.n.value + 8 * c.pos < 2 ^ 256) :
    ∃ n sigma : Quad,
      n.value = c.n.value + 8 * c.pos ∧ sigma.value = (c.sigma.value + leValue c.buf) % 2 ^ 256 ∧
      c.flush = .ok { c with h := gostFold c.sbox c.h c.lastBlocks, n := n, sigma := sigma, buf := [] } := by
  by_cases hbuf : c.buf = []
  · have hlast : c.lastBlocks = [] := if_pos (by rw [GostCtx.pos, hbuf]; rfl)
    refine ⟨c.n, c.sigma, by simp [hbuf], by rw [hbuf, leValue, Nat.add_zero, quad_value_mod], ?_⟩
    rw [gostFlush_of_empty hbuf, hlast, ← hbuf]
    rfl
  · have hlast : c.lastBlocks = [zeroFill 32 c.buf] := if_neg (by simpa using hbuf)
    obtain ⟨n, hadd, hn⟩ := lenAdd_of_fits (Nat.le_of_lt hpos) hfits
    refine ⟨n, sigmaAdd c.sigma (zeroFill 32 c.buf), hn, ?_, ?_⟩
    · rw [sigmaAdd_value _ (zeroFill_length 32 _ (Nat.le_of_lt hpos)), leValue_zeroFill]
    · rw [gostFlush_of_pending hbuf, dataBlock_of_lenAdd _ hadd, hlast]
      rfl

/-- The length block and the checksum block are compressed after whatever has been (R170 steps 3 to 5). -/
theorem gostDigest_eq_fold (c : GostCtx) (h : Bytes32) (blks : List (List Byte)) (hfold : c.h = gostFold c.sbox h blks) :
    c.digest = gostFold c.sbox h (blks ++ [leBytes 32 c.n.value, leBytes 32 c.sigma.value]) := by
  simp only [GostCtx.digest, hfold, gostFold, quad_bytes_eq_leBytes, List.foldl_append, List.foldl_cons, List.foldl_nil]

/-- FINALIZE.GOST94 on a configured context whose flush raises no fault (R170). -/
theorem exec_finalizeGost94_of_flush {s : State} {c : GostCtx} (hcfg : s.gost.cfg = true) (hflush : s.gost.flush = .ok c) :
    exec .finalizeGost94 s = .next (outWrite c.digest.toList { s with gost := c.restart }) := by
  simp only [exec, execFinalizeGost94, hcfg, hflush, if_true]

/-- Settles O39, by the flush and the digest of the flushed context. -/
theorem finalizeGost94AppendsTheDigest : Obligations.FinalizeGost94AppendsTheDigest := by
  intro s hcfg hpos hfits
  obtain ⟨n, sigma, hn, hsigma, hflush⟩ := gostFlush_of_fits s.gost hpos hfits
  rw [exec_finalizeGost94_of_flush hcfg hflush, gostDigest_eq_fold _ s.gost.h s.gost.lastBlocks rfl, hn, hsigma]
  rfl

end Sys2Proof.Machine
end

section
/-! Proofs about 10_state.md: each command as an effect on its own engine's context (R36), and commands in
a row. -/

namespace Sys2Proof.Machine

/-! ### The effect of a command: a fault, or a new context of its engine and bytes for OUT -/

/-- A new context of one engine. -/
inductive CtxUpdate where
  | sha1 (c : Sha1Ctx)
  | sha3 (c : Sha3Ctx)
  | gost (c : GostCtx)

/-- The engine whose context is new. -/
def CtxUpdate.engine : CtxUpdate → Engine
  | .sha1 _ => .sha1
  | .sha3 _ => .sha3
  | .gost _ => .gost94

/-- The state with the new context in its place. -/
def State.put (s : State) : CtxUpdate → State
  | .sha1 c => { s with sha1 := c }
  | .sha3 c => { s with sha3 := c }
  | .gost c => { s with gost := c }

@[simp] theorem put_params (s : State) (u : CtxUpdate) : (s.put u).params = s.params := by cases u <;> rfl
@[simp] theorem put_fault (s : State) (u : CtxUpdate) : (s.put u).fault = s.fault := by cases u <;> rfl
@[simp] theorem put_cmd (s : State) (u : CtxUpdate) : (s.put u).cmd = s.cmd := by cases u <;> rfl
@[simp] theorem put_cpos (s : State) (u : CtxUpdate) : (s.put u).cpos = s.cpos := by cases u <;> rfl
@[simp] theorem put_out (s : State) (u : CtxUpdate) : (s.put u).out = s.out := by cases u <;> rfl

/-- What a command brings about, read off its own engine's context (R128): a fault, or the new context and the bytes appended to
OUT. `exec_eq_effect` ties it to the machine. -/
def effect (i : Instr) (s : State) : Except FaultCode (CtxUpdate × List Byte) :=
  match i with
  | .initSha1 => .ok (.sha1 Sha1Ctx.initial, [])
  | .initSha3 => .ok (.sha3 Sha3Ctx.initial, [])
  | .initGost94 p => if sboxInRange p then .ok (.gost (GostCtx.configured p), []) else .error .configMalformed
  | .absorbSha1 p => .ok (.sha1 (s.sha1.absorb p), [])
  | .absorbSha3 p => .ok (.sha3 (s.sha3.absorb s.params p), [])
  | .absorbGost94 p =>
    if s.gost.cfg then (s.gost.absorb p).map fun c => (.gost c, []) else .error .unconfigured
  | .finalizeSha1 => .ok (.sha1 Sha1Ctx.initial, s.sha1.finalState.bytes)
  | .finalizeSha3 =>
    .ok (.sha3 Sha3Ctx.initial,
      squeeze (keccakLeaf s.params) s.params.rate s.params.outLen (s.sha3.finalState s.params))
  | .finalizeGost94 =>
    if s.gost.cfg then s.gost.flush.map fun c => (.gost c.restart, c.digest.toList) else .error .unconfigured

/-- The state after an effect. -/
def applyEffect (s : State) : Except FaultCode (CtxUpdate × List Byte) → State
  | .error f => raiseFault f s
  | .ok (u, d) => outWrite d (s.put u)

theorem outWrite_nil (s : State) : outWrite [] s = s := by simp [outWrite]

/-- Every command has its effect and no other. -/
theorem exec_eq_effect (i : Instr) (s : State) : exec i s = .next (applyEffect s (effect i s)) := by
  cases i with
  | initSha1 | initSha3 | absorbSha1 p | absorbSha3 p => simp only [effect, applyEffect, outWrite_nil]; rfl
  | finalizeSha1 | finalizeSha3 => rfl
  | initGost94 p =>
    simp only [exec, execInitGost94, effect]
    split
    · simp only [applyEffect, outWrite_nil]; rfl
    · rfl
  | absorbGost94 p =>
    simp only [exec, execAbsorbGost94, effect]
    split
    · cases s.gost.absorb p with
      | error f => rfl
      | ok c => simp only [Except.map, applyEffect, outWrite_nil]; rfl
    · rfl
  | finalizeGost94 =>
    simp only [exec, execFinalizeGost94, effect]
    split
    · cases s.gost.flush <;> rfl
    · rfl

theorem exec_eq_next_iff {i : Instr} {s t : State} : exec i s = .next t ↔ t = applyEffect s (effect i s) := by
  rw [exec_eq_effect, Host.Outcome.next.injEq, eq_comm]

/-! What the three GOST94 commands have done when they raise no fault. -/

theorem effect_initGost94_ok {p d : List Byte} {s : State} {u : CtxUpdate} (h : effect (.initGost94 p) s = .ok (u, d)) :
    u = .gost (GostCtx.configured p) ∧ d = [] := by
  simp only [effect] at h
  split at h
  · cases h
    exact ⟨rfl, rfl⟩
  · cases h

theorem effect_absorbGost94_ok {p d : List Byte} {s : State} {u : CtxUpdate} (h : effect (.absorbGost94 p) s = .ok (u, d)) :
    s.gost.cfg = true ∧ ∃ c, s.gost.absorb p = .ok c ∧ u = .gost c ∧ d = [] := by
  simp only [effect] at h
  split at h
  · next hcfg =>
    cases habsorb : s.gost.absorb p with
    | error f => rw [habsorb] at h; cases h
    | ok c => rw [habsorb] at h; cases h; exact ⟨hcfg, c, rfl, rfl, rfl⟩
  · cases h

theorem effect_finalizeGost94_ok {d : List Byte} {s : State} {u : CtxUpdate} (h : effect .finalizeGost94 s = .ok (u, d)) :
    s.gost.cfg = true ∧ ∃ c, s.gost.flush = .ok c ∧ u = .gost c.restart := by
  simp only [effect] at h
  split at h
  · next hcfg =>
    cases hflush : s.gost.flush with
    | error f => rw [hflush] at h; cases h
    | ok c => rw [hflush] at h; cases h; exact ⟨hcfg, c, rfl, rfl⟩
  · cases h

/-- A command's new context is that of its engine. -/
theorem effect_engine {i : Instr} {s : State} {u : CtxUpdate} {d : List Byte} (h : effect i s = .ok (u, d)) :
    u.engine = i.engine := by
  cases i with
  | initSha1 | initSha3 | absorbSha1 p | absorbSha3 p | finalizeSha1 | finalizeSha3 => cases h; rfl
  | initGost94 p => obtain ⟨rfl, -⟩ := effect_initGost94_ok h; rfl
  | absorbGost94 p => obtain ⟨-, c, -, rfl, -⟩ := effect_absorbGost94_ok h; rfl
  | finalizeGost94 => obtain ⟨-, c, -, rfl⟩ := effect_finalizeGost94_ok h; rfl

/-- Only FINALIZE has bytes for OUT (R34). -/
theorem effect_out_eq_nil {i : Instr} {s : State} {u : CtxUpdate} {d : List Byte} (h : effect i s = .ok (u, d))
    (hop : i.op ≠ .finalize) : d = [] := by
  cases i with
  | initSha1 | initSha3 | absorbSha1 p | absorbSha3 p => cases h; rfl
  | initGost94 p => exact (effect_initGost94_ok h).2
  | absorbGost94 p => obtain ⟨-, c, -, -, hd⟩ := effect_absorbGost94_ok h; exact hd
  | finalizeSha1 | finalizeSha3 | finalizeGost94 => exact absurd rfl hop

/-- An effect depends on the context of the command's engine alone (R36). -/
theorem effect_congr {i : Instr} {s₁ s₂ : State} (h : sameContext i.engine s₁ s₂) : effect i s₁ = effect i s₂ := by
  cases i with
  | initSha1 | initSha3 | initGost94 p => rfl
  | absorbSha1 p | finalizeSha1 =>
    have hctx : s₁.sha1 = s₂.sha1 := h
    simp only [effect, hctx]
  | absorbSha3 p | finalizeSha3 =>
    obtain ⟨hctx, hparams⟩ := (h : s₁.sha3 = s₂.sha3 ∧ s₁.params = s₂.params)
    simp only [effect, hctx, hparams]
  | absorbGost94 p | finalizeGost94 =>
    have hctx : s₁.gost = s₂.gost := h
    simp only [effect, hctx]

/-! What an effect leaves as it was. -/

@[simp] theorem applyEffect_cmd (s : State) (r : Except FaultCode (CtxUpdate × List Byte)) : (applyEffect s r).cmd = s.cmd := by
  cases r <;> simp [applyEffect]

@[simp] theorem applyEffect_cpos (s : State) (r : Except FaultCode (CtxUpdate × List Byte)) :
    (applyEffect s r).cpos = s.cpos := by
  cases r <;> simp [applyEffect]

@[simp] theorem applyEffect_gost (s : State) (c : GostCtx) (d : List Byte) : (applyEffect s (.ok (.gost c, d))).gost = c := rfl

/-- Without a fault afterwards there was none before, and the command has completed (R246). -/
theorem applyEffect_fault_eq_zero {s : State} {r : Except FaultCode (CtxUpdate × List Byte)} (h : (applyEffect s r).fault = 0) :
    s.fault = 0 ∧ ∃ u d, r = .ok (u, d) := by
  cases r with
  | error f => exact absurd h (raiseFault_fault_ne_zero f s)
  | ok ud => exact ⟨by simpa [applyEffect] using h, ud.1, ud.2, rfl⟩

/-- The contexts of the other engines stay as they were. -/
theorem sameContext_put_of_ne {e : Engine} {u : CtxUpdate} (h : e ≠ u.engine) (d : List Byte) (s : State) :
    sameContext e s (outWrite d (s.put u)) := by
  cases u <;> cases e
  case sha1.sha1 | sha3.sha3 | gost.gost94 => exact absurd rfl h
  case sha1.sha3 | gost.sha3 => exact ⟨rfl, rfl⟩
  case sha1.gost94 | sha3.sha1 | sha3.gost94 | gost.sha1 => rfl

/-- The same new context makes two states agree on it. -/
theorem sameContext_put {u : CtxUpdate} {s₁ s₂ : State} (h : sameContext u.engine s₁ s₂) (d₁ d₂ : List Byte) :
    sameContext u.engine (outWrite d₁ (s₁.put u)) (outWrite d₂ (s₂.put u)) := by
  cases u with
  | sha1 c | gost c => rfl
  | sha3 c => exact ⟨rfl, h.2⟩

/-- New contexts of different engines may be put in either order. -/
theorem put_comm {u v : CtxUpdate} (h : u.engine ≠ v.engine) (s : State) : (s.put u).put v = (s.put v).put u := by
  cases u <;> cases v
  case sha1.sha1 | sha3.sha3 | gost.gost => exact absurd rfl h
  all_goals rfl

theorem put_outWrite (u : CtxUpdate) (d : List Byte) (s : State) : (outWrite d s).put u = outWrite d (s.put u) := by
  cases u <;> rfl

theorem outWrite_outWrite (d e : List Byte) (s : State) : outWrite e (outWrite d s) = outWrite (d ++ e) s := by
  simp [outWrite]

/-! ### Commands of one engine and of several -/

/-- Settles O46: a completed command has put a new context of its own engine and written to OUT. -/
theorem commandLeavesOtherEnginesAlone : Obligations.CommandLeavesOtherEnginesAlone := by
  intro i e s t hexec hfault hne
  rw [exec_eq_next_iff] at hexec
  subst hexec
  obtain ⟨-, u, d, heff⟩ := applyEffect_fault_eq_zero hfault
  rw [heff]
  exact ⟨sameContext_put_of_ne (effect_engine heff ▸ hne) d s, by simp [applyEffect]⟩

/-- Settles O47: both commands have the same effect. -/
theorem commandReadsOnlyItsOwnEngine : Obligations.CommandReadsOnlyItsOwnEngine := by
  intro i s₁ s₂ t₁ t₂ hctx hfault hexec₁ hexec₂
  rw [exec_eq_next_iff] at hexec₁ hexec₂
  subst hexec₁ hexec₂
  rw [← effect_congr hctx]
  cases heff : effect i s₁ with
  | error f =>
    refine ⟨by simp [applyEffect, hfault], fun hzero => absurd hzero (raiseFault_fault_ne_zero f s₁), [], ?_⟩
    simp [applyEffect]
  | ok ud =>
    obtain ⟨u, d⟩ := ud
    rw [← effect_engine heff] at hctx ⊢
    exact ⟨by simp [applyEffect, hfault], fun _ => sameContext_put hctx d d, d, by simp [applyEffect]⟩

@[simp] theorem execAll_nil (s : State) : execAll [] s = .next s := rfl

/-- Commands in a row have their effects in a row. -/
@[simp] theorem execAll_cons (i : Instr) (is : List Instr) (s : State) :
    execAll (i :: is) s = execAll is (applyEffect s (effect i s)) := by
  rw [execAll, exec_eq_effect]

/-- Commands in a row that end without a fault began without one. -/
theorem fault_eq_zero_of_execAll {is : List Instr} {s t : State} (h : execAll is s = .next t) (hfault : t.fault = 0) :
    s.fault = 0 := by
  induction is generalizing s with
  | nil => cases h; exact hfault
  | cons i is ih =>
    rw [execAll_cons] at h
    exact (applyEffect_fault_eq_zero (ih h)).1

/-- Settles O48: neither command changes what the other reads, their new contexts have different places, and at most one of them
appends to OUT. -/
theorem commandsOfDifferentEnginesCommute : Obligations.CommandsOfDifferentEnginesCommute := by
  intro i j s t hne hop hrun hfault
  simp only [execAll_cons, execAll_nil, Host.Outcome.next.injEq] at hrun ⊢
  subst hrun
  obtain ⟨hfault₁, v, e, heffj₁⟩ := applyEffect_fault_eq_zero hfault
  obtain ⟨-, u, d, heffi⟩ := applyEffect_fault_eq_zero hfault₁
  rw [heffi] at heffj₁ ⊢
  have hu : u.engine = i.engine := effect_engine heffi
  have heffj : effect j s = .ok (v, e) :=
    (effect_congr (sameContext_put_of_ne (hu ▸ hne.symm) d s)).trans heffj₁
  have hv : v.engine = j.engine := effect_engine heffj
  have heffi₂ : effect i (outWrite e (s.put v)) = .ok (u, d) :=
    (effect_congr (sameContext_put_of_ne (hv ▸ hne) e s)).symm.trans heffi
  have hout : d ++ e = e ++ d := by
    obtain hi | hj := hop
    · simp [effect_out_eq_nil heffi hi]
    · simp [effect_out_eq_nil heffj hj]
  simp only [applyEffect] at heffj₁ ⊢
  simp only [heffj, heffj₁, heffi₂, put_outWrite, outWrite_outWrite, hout, put_comm (hu ▸ hv ▸ hne)]

/-! ### What a GOST94 context keeps -/

/-- What every block callback keeps, the Block Buffer keeps. -/
theorem bufAbsorb_induct {σ : Type} {P : σ → Prop} {size : Nat} {block : σ → List Byte → σ}
    (hblock : ∀ x blk, P x → P (block x blk)) (buf : List Byte) (x : σ) (p : List Byte) (h : P x) :
    P (bufAbsorb size block buf x p).2 := by
  induction p generalizing buf x with
  | nil => exact h
  | cons d ds ih =>
    unfold bufAbsorb
    split
    · exact ih _ _ (hblock _ _ h)
    · exact ih _ _ h

/-- `c'` has come from `c` by full blocks: the counter has moved by whole blocks, and S-box, IV and CFG are the same. -/
def GostCtx.BlocksAfter (c c' : GostCtx) : Prop := c'.n.value % 256 = c.n.value % 256 ∧ c'.restart = c.restart

/-- A data block changes only what a restart overwrites. -/
theorem dataBlock_restart {c c' : GostCtx} {blk : List Byte} {r : Nat} (h : c.dataBlock blk r = .ok c') :
    c'.restart = c.restart := by
  obtain ⟨n, -, rfl⟩ := dataBlock_ok c c' blk r h
  simp only [GostCtx.restart]

/-- The same of a run of block callbacks, unless one of them has raised a fault. -/
def GostCtx.LeadsTo (c : GostCtx) (x : Except FaultCode GostCtx) : Prop := ∀ c', x = .ok c' → c.BlocksAfter c'

theorem gostFullBlock_leadsTo {c : GostCtx} (x : Except FaultCode GostCtx) (blk : List Byte) (h : c.LeadsTo x) :
    c.LeadsTo (gostFullBlock x blk) := by
  intro c' hblock
  cases x with
  | error f => cases hblock
  | ok c₁ =>
    obtain ⟨hcount, hkept⟩ := h c₁ rfl
    refine ⟨?_, (dataBlock_restart hblock).trans hkept⟩
    obtain ⟨n, hadd, rfl⟩ := dataBlock_ok c₁ c' blk 32 hblock
    rw [lenAdd_ok_value le_rfl hadd, ← hcount]
    exact Nat.add_mod_right _ _

theorem gostRebuffer_ok {r : List Byte × Except FaultCode GostCtx} {c' : GostCtx} (h : gostRebuffer r = .ok c') :
    ∃ c, r.2 = .ok c ∧ c' = { c with buf := r.1 } := by
  unfold gostRebuffer at h
  split at h
  · cases h
  · next c hc => cases h; exact ⟨c, hc, rfl⟩

/-- All that ABSORB does to a GOST94 context but for the hash and the checksum. -/
theorem gostAbsorb_ok {c c' : GostCtx} {p : List Byte} (h : c.absorb p = .ok c') :
    c.BlocksAfter c' ∧ c'.buf = (bufAbsorb gostBlock gostFullBlock c.buf (.ok c) p).1 := by
  obtain ⟨c₁, hfold, rfl⟩ := gostRebuffer_ok h
  have hstart : c.LeadsTo (.ok c) := by
    rintro _ ⟨⟩
    exact ⟨rfl, rfl⟩
  exact ⟨bufAbsorb_induct gostFullBlock_leadsTo c.buf (.ok c) p hstart c₁ hfold, rfl⟩

theorem gostFlush_restart {c c' : GostCtx} (h : c.flush = .ok c') : c'.restart = c.restart := by
  by_cases hbuf : c.buf = []
  · rw [gostFlush_of_empty hbuf] at h
    cases h
    rfl
  · rw [gostFlush_of_pending hbuf] at h
    obtain ⟨c₁, hblock, rfl⟩ := gostRebuffer_ok h
    exact (dataBlock_restart hblock :)

/-- After any ABSORB commands and FINALIZE the context is restarted with the S-box and IV it had. -/
theorem gost_of_absorbs_finalize {chunks : List (List Byte)} {s t : State}
    (h : execAll (chunks.map .absorbGost94 ++ [.finalizeGost94]) s = .next t) (hfault : t.fault = 0) :
    t.gost = s.gost.restart := by
  induction chunks generalizing s with
  | nil =>
    simp only [List.map_nil, List.nil_append, execAll_cons, execAll_nil, Host.Outcome.next.injEq] at h
    subst h
    obtain ⟨-, u, d, heff⟩ := applyEffect_fault_eq_zero hfault
    obtain ⟨-, c, hflush, rfl⟩ := effect_finalizeGost94_ok heff
    rw [heff, applyEffect_gost, gostFlush_restart hflush]
  | cons p chunks ih =>
    rw [List.map_cons, List.cons_append, execAll_cons] at h
    obtain ⟨-, u, d, heff⟩ := applyEffect_fault_eq_zero (fault_eq_zero_of_execAll h hfault)
    obtain ⟨-, c, habsorb, rfl, rfl⟩ := effect_absorbGost94_ok heff
    obtain ⟨⟨-, hkept⟩, -⟩ := gostAbsorb_ok habsorb
    rw [ih h, heff, applyEffect_gost, hkept]

/-- Settles O45: INIT and FINALIZE both give the initial message state; for GOST94, with the S-box and IV that no ABSORB has
changed. -/
theorem finalizeLeavesWhatInitLeaves : Obligations.FinalizeLeavesWhatInitLeaves := by
  refine ⟨fun s t u hfinal hinit => ?_, fun s t u hfinal hinit => ?_, fun chunks p s t u hinit hu hrun ht => ?_⟩
  · cases hfinal; cases hinit; rfl
  · cases hfinal; cases hinit; rfl
  · rw [exec_eq_next_iff] at hinit
    rw [execAll_cons, ← hinit] at hrun
    rw [gost_of_absorbs_finalize hrun ht]
    subst hinit
    obtain ⟨-, v, d, heff⟩ := applyEffect_fault_eq_zero hu
    obtain ⟨rfl, rfl⟩ := effect_initGost94_ok heff
    rw [heff]
    rfl

end Sys2Proof.Machine
end

section
/-! Proofs about 10_state.md: what steps do to CMD, OUT and FAULT, the legal states, and the unspecified values (R42). -/

namespace Sys2Proof.Machine

/-! ### What a step consumes and outputs -/

theorem decode_incomplete_of_short {bs : List Byte} (h : bs.length < 4) : decode bs = .incomplete := if_pos h

/-- An illegal header has all its four bytes (R87). -/
theorem length_of_decode_illegal {bs : List Byte} {why : HeaderError} (h : decode bs = .illegal why) : 4 ≤ bs.length := by
  by_contra hshort
  rw [decode_incomplete_of_short (by omega)] at h
  cases h

theorem header_instr_payload_length_le (hd : Header) (p : List Byte) : (hd.instr p).payload.length ≤ p.length := by
  obtain ⟨op, eng, len⟩ := hd
  cases op <;> cases eng <;> simp [Header.instr, Instr.payload]

/-- A decoded command lies within the bytes it was decoded from (R89). -/
theorem size_le_of_decode_command {bs : List Byte} {i : Instr} (h : decode bs = .command i) : i.size ≤ bs.length := by
  unfold decode at h
  split at h
  · cases h
  · split at h
    · cases h
    · next hd _ =>
      split at h
      · cases h
      · cases h
        have hpayload := header_instr_payload_length_le hd ((bs.drop 4).take hd.len)
        simp only [List.length_take, List.length_drop] at hpayload
        simp only [Instr.size]
        omega

/-- What the next state of a step can be (R120), with a command's effect in place of its execution. -/
theorem step_next_cases {s t : State} (h : step s = .next t) :
    t = s ∨ (∃ why, decode s.cmd = .illegal why ∧ t = raiseFault .illegalCmd (s.consume 4)) ∨
    ∃ i, decode s.cmd = .command i ∧ t = applyEffect (s.consume i.size) (effect i (s.consume i.size)) := by
  obtain hidle | ⟨-, ⟨why, hdecode⟩, hillegal⟩ | ⟨-, i, hdecode, hcommand⟩ := step_cases s
  · exact .inl (Host.Outcome.next.inj (h.symm.trans hidle))
  · exact .inr (.inl ⟨why, hdecode, Host.Outcome.next.inj (h.symm.trans hillegal)⟩)
  · exact .inr (.inr ⟨i, hdecode, exec_eq_next_iff.mp (hcommand.symm.trans h)⟩)

/-- Settles O12: a step consumes nothing, the four bytes of an illegal header, or a command, all of which CMD holds. -/
theorem stepConsumesFromTheFront : Obligations.StepConsumesFromTheFront := by
  intro s t hstep
  obtain rfl | ⟨why, hdecode, rfl⟩ | ⟨i, hdecode, rfl⟩ := step_next_cases hstep
  · exact ⟨0, Nat.zero_le _, rfl, rfl⟩
  · exact ⟨4, length_of_decode_illegal hdecode, rfl, rfl⟩
  · exact ⟨i.size, size_le_of_decode_command hdecode, by simp, by simp⟩

/-- What a command does to OUT: it appends, and nothing unless it is a FINALIZE. -/
theorem applyEffect_out (i : Instr) (s : State) :
    ∃ d, (applyEffect s (effect i s)).out = s.out ++ d ∧ (d ≠ [] → i.op = .finalize) := by
  cases heff : effect i s with
  | error f => exact ⟨[], by simp [applyEffect], fun hd => absurd rfl hd⟩
  | ok ud =>
    obtain ⟨u, d⟩ := ud
    exact ⟨d, by simp [applyEffect], fun hd => by_contra fun hop => hd (effect_out_eq_nil heff hop)⟩

/-- Settles O13, by what a step can do and what a command appends. -/
theorem onlyFinalizeAppendsToOut : Obligations.OnlyFinalizeAppendsToOut := by
  intro s t hstep
  obtain rfl | ⟨why, hdecode, rfl⟩ | ⟨i, hdecode, rfl⟩ := step_next_cases hstep
  · exact ⟨[], by simp, fun hd => absurd rfl hd⟩
  · exact ⟨[], by simp, fun hd => absurd rfl hd⟩
  · obtain ⟨d, hout, hop⟩ := applyEffect_out i (s.consume i.size)
    exact ⟨d, hout, fun hd => ⟨i, hdecode, hop hd⟩⟩

/-! ### The halted CORE, and the reset event -/

theorem step_of_fault {s : State} (h : s.fault ≠ 0) : step s = .next s := by
  have hhalted : fetch s = .halted := if_neg h
  rw [step, hhalted]

theorem step_of_incomplete {s : State} (h : decode s.cmd = .incomplete) : step s = .next s := by
  by_cases hfault : s.fault = 0
  · simp [step, fetch, hfault, h]
  · exact step_of_fault hfault

theorem step_of_illegal {s : State} {why : HeaderError} (hfault : s.fault = 0) (h : decode s.cmd = .illegal why) :
    step s = .next (applyEffect (s.consume 4) (.error .illegalCmd)) := by
  simp [step, fetch, hfault, h, applyEffect]

theorem step_of_command {s : State} {i : Instr} (hfault : s.fault = 0) (h : decode s.cmd = .command i) :
    step s = .next (applyEffect (s.consume i.size) (effect i (s.consume i.size))) := by
  simp [step, fetch, hfault, h, exec_eq_effect]

theorem run_succ_of_step {M : Host.Core} {k : Nat} {s t : M.State} (h : M.step s = .next t) : M.run (k + 1) s = M.run k t := by
  rw [Host.Core.run, h]

theorem core_run_succ {k : Nat} {s t : State} (h : step s = .next t) :
    Sys2Proof.core.run (k + 1) s = Sys2Proof.core.run k t :=
  run_succ_of_step (M := Sys2Proof.core) h

/-- Settles O14, by induction on the number of steps. That a halted CORE has steps at all is the model's choice (assumption log
5). -/
theorem faultIsStickyForEver : Obligations.FaultIsStickyForEver := by
  intro k s hfault
  induction k with
  | zero => rfl
  | succ k ih =>
    rw [core_run_succ (step_of_fault hfault)]
    exact ih

/-- Settles O15, field by field. -/
theorem resetEventEstablishesTheResetState : Obligations.ResetEventEstablishesTheResetState := by
  intro s
  refine ⟨rfl, fun i => ?_, rfl, rfl, rfl, rfl, rfl, rfl, rfl, rfl, rfl, rfl⟩
  rw [resetEvent_sha3, sha3Initial_a, zeroLanes]
  exact Vector.getElem_replicate i.isLt

/-! ### Legal states -/

/-- The cursor is legal (R35), and the bit counter agrees with it (R22). -/
def Sha1Ctx.Legal (c : Sha1Ctx) : Prop := c.pos < 64 ∧ c.nbits.toNat % 512 = 8 * c.pos

/-- The cursor is legal (R35). -/
def Sha3Ctx.Legal (params : Sha3Params) (c : Sha3Ctx) : Prop := c.pos < params.rate

/-- The cursor is legal (R35), the counter counts whole blocks (R28), and an unconfigured context is empty (R37). -/
def GostCtx.Legal (c : GostCtx) : Prop :=
  c.pos < 32 ∧ c.n.value % 256 = 0 ∧ (c.cfg = false → c.n.value = 0 ∧ c.sigma.value = 0 ∧ c.buf = [])

/-- All three contexts are legal. -/
def State.ContextsLegal (s : State) : Prop := s.sha1.Legal ∧ s.sha3.Legal s.params ∧ s.gost.Legal

/-- The new context is legal. -/
def CtxUpdate.Legal (params : Sha3Params) : CtxUpdate → Prop
  | .sha1 c => c.Legal
  | .sha3 c => c.Legal params
  | .gost c => c.Legal

/-- The invariant, engine by engine. -/
theorem inv_iff (s : State) : s.Inv ↔ s.fault.toNat ≤ 4 ∧ (s.fault = 0 → s.ContextsLegal) := by
  simp only [State.Inv, State.CursorsLegal, State.CountersLegal, State.UnconfiguredIdle, State.ContextsLegal, Sha1Ctx.Legal,
    Sha3Ctx.Legal, GostCtx.Legal]
  tauto

theorem sha1Initial_legal : Sha1Ctx.initial.Legal := ⟨by decide, by decide⟩

theorem sha3Initial_legal (params : Sha3Params) : Sha3Ctx.initial.Legal params := by
  have hrate := params.rate_legal
  simp only [Sha3Ctx.Legal, Sha3Ctx.pos, sha3Initial_buf, List.length_nil]
  omega

theorem unconfigured_legal : GostCtx.unconfigured.Legal := ⟨by decide, by decide, fun _ => ⟨rfl, rfl, rfl⟩⟩

/-- A configured context in its initial message state is legal. -/
theorem restart_legal {c : GostCtx} (h : c.cfg = true) : c.restart.Legal :=
  ⟨Nat.zero_lt_succ 31, rfl, fun hcfg => absurd (h.symm.trans hcfg) (by decide)⟩

/-- Counting the new bits modulo `2^64` and the new bytes modulo 64 agrees, since 512 divides `2^64`. -/
theorem sha1Absorb_legal {c : Sha1Ctx} (h : c.Legal) (p : List Byte) : (c.absorb p).Legal := by
  obtain ⟨hpos, hbits⟩ := h
  have hlen : (c.absorb p).pos = (c.pos + p.length) % 64 := bufAbsorb_length 64 sha1Compress c.buf c.h p hpos
  have hnbits : (c.absorb p).nbits.toNat = (c.nbits.toNat + 8 * p.length % 2 ^ 64) % 2 ^ 64 := by
    simp only [Sha1Ctx.absorb, BitVec.toNat_add, BitVec.toNat_ofNat]
  rw [Sha1Ctx.Legal, hlen, hnbits]
  omega

theorem sha3Absorb_legal {params : Sha3Params} {c : Sha3Ctx} (h : c.Legal params) (p : List Byte) :
    (c.absorb params p).Legal params := by
  have hlen : (c.absorb params p).pos = (c.pos + p.length) % params.rate := bufAbsorb_length _ _ c.buf c.a p h
  rw [Sha3Ctx.Legal, hlen]
  exact Nat.mod_lt _ (Nat.zero_lt_of_lt h)

theorem gostAbsorb_legal {c c' : GostCtx} {p : List Byte} (h : c.Legal) (hcfg : c.cfg = true) (habsorb : c.absorb p = .ok c') :
    c'.Legal := by
  obtain ⟨hpos, hcount, -⟩ := h
  obtain ⟨⟨hcount', hkept⟩, hbuf⟩ := gostAbsorb_ok habsorb
  have hlen : c'.pos = (c.pos + p.length) % 32 := by
    rw [GostCtx.pos, hbuf]
    exact bufAbsorb_length _ _ c.buf _ p hpos
  have hcfg' : c'.cfg = true := (congrArg GostCtx.cfg hkept).trans hcfg
  exact ⟨hlen ▸ Nat.mod_lt _ (by decide), hcount'.trans hcount, fun hc => absurd (hcfg'.symm.trans hc) (by decide)⟩

/-- From legal contexts a command makes a legal one. -/
theorem effect_legal {i : Instr} {s : State} {u : CtxUpdate} {d : List Byte} (hs : s.ContextsLegal)
    (h : effect i s = .ok (u, d)) : u.Legal s.params := by
  obtain ⟨hsha1, hsha3, hgost⟩ := hs
  cases i with
  | initSha1 | finalizeSha1 => cases h; exact sha1Initial_legal
  | initSha3 | finalizeSha3 => cases h; exact sha3Initial_legal s.params
  | initGost94 p => obtain ⟨rfl, -⟩ := effect_initGost94_ok h; exact restart_legal (c := GostCtx.configured p) rfl
  | absorbSha1 p => cases h; exact sha1Absorb_legal hsha1 p
  | absorbSha3 p => cases h; exact sha3Absorb_legal hsha3 p
  | absorbGost94 p =>
    obtain ⟨hcfg, c, habsorb, rfl, -⟩ := effect_absorbGost94_ok h
    exact gostAbsorb_legal hgost hcfg habsorb
  | finalizeGost94 =>
    obtain ⟨hcfg, c, hflush, rfl⟩ := effect_finalizeGost94_ok h
    exact restart_legal ((congrArg GostCtx.cfg (gostFlush_restart hflush)).trans hcfg)

theorem put_contextsLegal {s : State} {u : CtxUpdate} (hs : s.ContextsLegal) (hu : u.Legal s.params) :
    (s.put u).ContextsLegal := by
  obtain ⟨hsha1, hsha3, hgost⟩ := hs
  cases u with
  | sha1 c => exact ⟨hu, hsha3, hgost⟩
  | sha3 c => exact ⟨hsha1, hu, hgost⟩
  | gost c => exact ⟨hsha1, hsha3, hu⟩

/-- A state with a fault is legal whatever its contexts (R42). -/
theorem raiseFault_inv {s : State} (h : s.fault.toNat ≤ 4) (c : FaultCode) : (raiseFault c s).Inv := by
  refine ⟨?_, fun hzero => absurd hzero (raiseFault_fault_ne_zero c s)⟩
  rw [raiseFault_fault]
  split
  · exact faultCode_le_four c
  · exact h

/-- Settles O51: the initial contexts are legal. -/
theorem resetStateIsLegal : Obligations.ResetStateIsLegal :=
  (inv_iff _).mpr ⟨by decide, fun _ => ⟨sha1Initial_legal, sha3Initial_legal _, unconfigured_legal⟩⟩

/-- Every command from a legal state gives a legal state. -/
theorem applyEffect_inv {s : State} (h : s.Inv) (i : Instr) : (applyEffect s (effect i s)).Inv := by
  obtain ⟨hcode, hlegal⟩ := (inv_iff s).mp h
  cases heff : effect i s with
  | error f => exact raiseFault_inv hcode f
  | ok ud =>
    obtain ⟨u, d⟩ := ud
    refine (inv_iff _).mpr ⟨by simpa [applyEffect] using hcode, fun hzero => ?_⟩
    have hs := hlegal (by simpa [applyEffect] using hzero)
    exact put_contextsLegal hs (effect_legal hs heff)

/-- Settles O52, by what a step can do and what a command does to the contexts. -/
theorem everyStepKeepsTheStateLegal : Obligations.EveryStepKeepsTheStateLegal := by
  intro s t hinv hstep
  obtain rfl | ⟨-, -, rfl⟩ | ⟨i, -, rfl⟩ := step_next_cases hstep
  · exact hinv
  · obtain ⟨hcode, -⟩ := hinv
    exact raiseFault_inv (s := s.consume 4) hcode .illegalCmd
  · exact applyEffect_inv (s := s.consume i.size) hinv i

/-! ### The unspecified values of an unconfigured GOST94 context -/

/-- `s'` is `s`, or `s` before any INIT.GOST94 with other values of what R42 leaves unspecified. -/
def State.EqUpToUnspecified (s s' : State) : Prop :=
  s' = s ∨ s.gost.cfg = false ∧ ∃ h iv sbox, s' = s.withUnspecified h iv sbox

theorem visible_eq_of_eqUpToUnspecified {s s' : State} (h : s.EqUpToUnspecified s') : s.visible = s'.visible := by
  obtain rfl | ⟨-, h, iv, sbox, rfl⟩ := h <;> rfl

/-- An unconfigured context has no say in any command (R169, R170). -/
theorem effect_withUnspecified {s : State} (hcfg : s.gost.cfg = false) (h iv : Bytes32) (sbox : SBox) (i : Instr) :
    effect i (s.withUnspecified h iv sbox) = effect i s := by
  cases i with
  | absorbGost94 p | finalizeGost94 => simp [effect, hcfg]
  | initSha1 | initSha3 | initGost94 p | absorbSha1 p | absorbSha3 p | finalizeSha1 | finalizeSha3 => rfl

/-- One effect on both states keeps them equal up to the unspecified values: it leaves these or overwrites the whole context. -/
theorem applyEffect_eqUpToUnspecified {s : State} (hcfg : s.gost.cfg = false) (h iv : Bytes32) (sbox : SBox)
    (r : Except FaultCode (CtxUpdate × List Byte)) :
    (applyEffect s r).EqUpToUnspecified (applyEffect (s.withUnspecified h iv sbox) r) := by
  match r with
  | .error f => exact .inr ⟨hcfg, h, iv, sbox, rfl⟩
  | .ok (.sha1 c, d) => exact .inr ⟨hcfg, h, iv, sbox, rfl⟩
  | .ok (.sha3 c, d) => exact .inr ⟨hcfg, h, iv, sbox, rfl⟩
  | .ok (.gost c, d) => exact .inl rfl

/-- A step keeps two states equal up to the unspecified values: the fetch does not look at the GOST94 context, and no command's
effect depends on them. -/
theorem step_eqUpToUnspecified {s s' : State} (hs : s.EqUpToUnspecified s') :
    ∃ t t', step s = .next t ∧ step s' = .next t' ∧ t.EqUpToUnspecified t' := by
  obtain rfl | ⟨hcfg, h, iv, sbox, rfl⟩ := hs
  · obtain ⟨t, hstep⟩ := everyStepHasANextState s'
    exact ⟨t, t, hstep, hstep, .inl rfl⟩
  have hidle : s.EqUpToUnspecified (s.withUnspecified h iv sbox) := .inr ⟨hcfg, h, iv, sbox, rfl⟩
  have hboth (n : Nat) := applyEffect_eqUpToUnspecified (s := s.consume n) hcfg h iv sbox
  by_cases hfault : s.fault = 0
  · cases hdecode : decode s.cmd with
    | incomplete => exact ⟨_, _, step_of_incomplete hdecode, step_of_incomplete hdecode, hidle⟩
    | illegal why => exact ⟨_, _, step_of_illegal hfault hdecode, step_of_illegal hfault hdecode, hboth 4 _⟩
    | command i =>
      have heff := effect_withUnspecified (s := s.consume i.size) hcfg h iv sbox i
      exact ⟨_, _, step_of_command hfault hdecode, step_of_command hfault hdecode, heff ▸ hboth i.size _⟩
  · exact ⟨_, _, step_of_fault hfault, step_of_fault hfault, hidle⟩

/-- So do any number of steps, also beyond an INIT.GOST94, which gives both states the same context. -/
theorem run_eqUpToUnspecified {k : Nat} {s s' t t' : State} (hs : s.EqUpToUnspecified s')
    (hrun : Sys2Proof.core.run k s = .next t) (hrun' : Sys2Proof.core.run k s' = .next t') : t.EqUpToUnspecified t' := by
  induction k generalizing s s' with
  | zero =>
    cases hrun
    cases hrun'
    exact hs
  | succ k ih =>
    obtain ⟨u, u', hstep, hstep', hu⟩ := step_eqUpToUnspecified hs
    rw [core_run_succ hstep] at hrun
    rw [core_run_succ hstep'] at hrun'
    exact ih hu hrun hrun'

/-- Settles O53: what the host sees is the same of states equal up to the unspecified values. -/
theorem unspecifiedGostStateIsNeverSeen : Obligations.UnspecifiedGostStateIsNeverSeen := by
  intro k s t t' h iv sbox hcfg hrun hrun'
  exact visible_eq_of_eqUpToUnspecified (run_eqUpToUnspecified (.inr ⟨hcfg, h, iv, sbox, rfl⟩) hrun hrun')

end Sys2Proof.Machine
end

section
/-! Proofs about 20_memory.md: which bytes of CMD make a command (R61, R66, R73), and the bytes of the Keccak lanes (R64). -/

namespace Sys2Proof.Machine

/-! ### What `decode` answers, by the parts of its bytes -/

/-- A command is decoded from its header's four bytes and its payload (R89), whatever stands behind them. -/
theorem decode_eq_command_iff {bs : List Byte} {i : Instr} :
    decode bs = .command i ↔
      ∃ hdr p rest h, bs = hdr ++ (p ++ rest) ∧ hdr.length = 4 ∧ decodeHeader (le32 hdr) = .ok h ∧ p.length = h.len ∧
        i = h.instr p := by
  constructor
  · intro hdecode
    by_cases hshort : bs.length < 4
    · simp [decode_incomplete_of_short hshort] at hdecode
    rw [decode, if_neg hshort] at hdecode
    split at hdecode
    · cases hdecode
    next h hok =>
      split at hdecode
      · cases hdecode
      next hpayload =>
        cases hdecode
        exact ⟨bs.take 4, (bs.drop 4).take h.len, (bs.drop 4).drop h.len, h, by simp only [List.take_append_drop],
          List.length_take_of_le (Nat.le_of_not_lt hshort), hok, List.length_take_of_le (Nat.le_of_not_lt hpayload), rfl⟩
  · rintro ⟨hdr, p, rest, h, rfl, hlen, hok, hp, rfl⟩
    simp [decode, ← hlen, ← hp, hok]

/-- A header is rejected on its own four bytes (R87), whatever stands behind them. -/
theorem decode_eq_illegal_iff {bs : List Byte} {why : HeaderError} :
    decode bs = .illegal why ↔
      ∃ hdr rest, bs = hdr ++ rest ∧ hdr.length = 4 ∧ decodeHeader (le32 hdr) = .error why := by
  constructor
  · intro hdecode
    have hlen := length_of_decode_illegal hdecode
    rw [decode, if_neg (Nat.not_lt.mpr hlen)] at hdecode
    split at hdecode
    · next herror =>
      cases hdecode
      exact ⟨bs.take 4, bs.drop 4, (List.take_append_drop 4 bs).symm, List.length_take_of_le hlen, herror⟩
    · split at hdecode <;> cases hdecode
  · rintro ⟨hdr, rest, rfl, hlen, herror⟩
    simp [decode, ← hlen, herror]

/-- Settles O6: later bytes only lengthen what stands behind the command or the header. -/
theorem laterBytesDoNotChangeACommand : Obligations.LaterBytesDoNotChangeACommand := by
  intro bs more
  refine ⟨fun i hcommand => ?_, fun why hillegal => ?_⟩
  · obtain ⟨hdr, p, rest, h, rfl, hsel⟩ := decode_eq_command_iff.mp hcommand
    exact decode_eq_command_iff.mpr ⟨hdr, p, rest ++ more, h, by simp only [List.append_assoc], hsel⟩
  · obtain ⟨hdr, rest, rfl, hrejected⟩ := decode_eq_illegal_iff.mp hillegal
    exact decode_eq_illegal_iff.mpr ⟨hdr, rest ++ more, List.append_assoc .., hrejected⟩

theorem decode_incomplete_of_short_payload {bs : List Byte} {h : Header} (hok : decodeHeader (le32 (bs.take 4)) = .ok h)
    (hshort : bs.length < 4 + h.len) : decode bs = .incomplete := by
  by_cases hheader : bs.length < 4
  · exact decode_incomplete_of_short hheader
  · have hpayload : (bs.drop 4).length < h.len := by rw [List.length_drop]; omega
    simp only [decode, if_neg hheader, hok, if_pos hpayload]

/-- Settles O10: in both cases CMD holds no whole command. That waiting is a step, and that the header waits with its payload, are
the model's choices (assumption log 5, 7). -/
theorem stuckCoreChangesNothing : Obligations.StuckCoreChangesNothing := by
  intro s _ hwaits
  obtain hshort | ⟨h, hok, hshort⟩ := hwaits
  · exact step_of_incomplete (decode_incomplete_of_short hshort)
  · exact step_of_incomplete (decode_incomplete_of_short_payload hok hshort)

/-! ### The header of a well-formed command -/

@[simp] theorem decodeOp_code (op : Op) : decodeOp op.code = some op := by cases op <;> rfl

@[simp] theorem decodeEngine_code (eng : Engine) : decodeEngine eng.code = some eng := by cases eng <;> rfl

/-- The fields of R81 are read back from a command's header word. -/
theorem header_fields (i : Instr) :
    i.header.extractLsb' 28 4 = i.op.code ∧ i.header.extractLsb' 24 4 = i.engine.code ∧ i.header.extractLsb' 16 8 = 0 ∧
      i.header.extractLsb' 0 16 = BitVec.ofNat 16 i.payload.length := by
  simp only [Instr.header]
  refine ⟨?_, ?_, ?_, BitVec.extractLsb'_append_eq_right⟩
  · rw [BitVec.extractLsb'_append_eq_of_le (by decide), BitVec.extractLsb'_append_eq_of_le (by decide)]
    exact BitVec.extractLsb'_append_eq_left
  · rw [BitVec.extractLsb'_append_eq_of_le (by decide), BitVec.extractLsb'_append_eq_of_le (by decide)]
    exact BitVec.extractLsb'_append_eq_right
  · rw [BitVec.extractLsb'_append_eq_of_le (by decide)]
    exact BitVec.extractLsb'_append_eq_right

theorem payload_length_lt_of_wellFormed {i : Instr} (h : i.wellFormed = true) : i.payload.length < 2 ^ 16 := by
  cases i with
  | initSha1 | initSha3 | finalizeSha1 | finalizeSha3 | finalizeGost94 => exact Nat.two_pow_pos 16
  | initGost94 p =>
    have hlen : p.length = gostConfigLen := by simpa [Instr.wellFormed] using h
    rw [Instr.payload, hlen]
    decide
  | absorbSha1 p | absorbSha3 p | absorbGost94 p => exact Nat.lt_succ_of_le (of_decide_eq_true h)

theorem headerSelects (i : Instr) : Laws.HeaderSelects.Statement i := by
  cases i with
  | initSha1 => exact Laws.HeaderSelects.initSha1
  | initSha3 => exact Laws.HeaderSelects.initSha3
  | initGost94 p => exact Laws.HeaderSelects.initGost94 p
  | absorbSha1 p => exact Laws.HeaderSelects.absorbSha1 p
  | absorbSha3 p => exact Laws.HeaderSelects.absorbSha3 p
  | absorbGost94 p => exact Laws.HeaderSelects.absorbGost94 p
  | finalizeSha1 => exact Laws.HeaderSelects.finalizeSha1
  | finalizeSha3 => exact Laws.HeaderSelects.finalizeSha3
  | finalizeGost94 => exact Laws.HeaderSelects.finalizeGost94

/-- The header word of a well-formed command is legal and has the command's fields. -/
theorem decodeHeader_header {i : Instr} (h : i.wellFormed = true) :
    decodeHeader i.header = .ok { op := i.op, eng := i.engine, len := i.payload.length } := by
  obtain ⟨hop, heng, hrsv, hlen⟩ := header_fields i
  obtain ⟨hlegal, -⟩ := headerSelects i h
  have hcount : (BitVec.ofNat 16 i.payload.length).toNat = i.payload.length :=
    Nat.mod_eq_of_lt (payload_length_lt_of_wellFormed h)
  rw [decodeHeader, if_neg (not_not.mpr hrsv)]
  simp only [hop, heng, hlen, hcount, decodeOp_code, decodeEngine_code, if_pos hlegal]

/-- Settles O1: the header is read back little-endian with its fields, and selects the command with the payload it announces. -/
theorem encodedCommandDecodesToItself : Obligations.EncodedCommandDecodesToItself := by
  intro i rest hwf
  obtain ⟨-, hselects⟩ := headerSelects i hwf
  refine decode_eq_command_iff.mpr ⟨toLe32 i.header, i.payload, rest, _, ?_, toLe32_length _, ?_, rfl, hselects.symm⟩
  · rw [encode, List.append_assoc]
  · rw [le32_toLe32, decodeHeader_header hwf]

/-- Bytes that begin with a well-formed command's encoding decode to the command. -/
theorem decode_of_eq_encode_append {bs : List Byte} {i : Instr} (rest : List Byte) (hwf : i.wellFormed = true)
    (h : bs = encode i ++ rest) : decode bs = .command i :=
  h ▸ encodedCommandDecodesToItself i rest hwf

theorem encode_initGost94 {p : List Byte} (h : p.length = gostConfigLen) :
    encode (.initGost94 p) = [0xA0, 0x00, 0x00, 0x13] ++ p := by
  have hheader : (Instr.initGost94 p).header = 0x130000A0 := by
    simp only [Instr.header, Instr.op, Instr.engine, Instr.payload, h]
    decide
  rw [encode, hheader]
  rfl

/-- Settles O5: each sequence is the encoding of its command, in one case with a byte behind it. -/
theorem writtenHeadersDecodeToTheirCommands : Obligations.WrittenHeadersDecodeToTheirCommands := by
  have hconfig : (List.replicate 160 (0x05 : Byte)).length = gostConfigLen := List.length_replicate
  refine ⟨decode_of_eq_encode_append [] rfl rfl, decode_of_eq_encode_append [] rfl rfl,
    decode_of_eq_encode_append [] (beq_iff_eq.mpr hconfig) ?_,
    decode_of_eq_encode_append [] rfl rfl, decode_of_eq_encode_append [0xFF] rfl rfl, decode_of_eq_encode_append [] rfl rfl,
    decode_of_eq_encode_append [] rfl rfl, decode_of_eq_encode_append [] rfl rfl, decode_of_eq_encode_append [] rfl rfl⟩
  rw [encode_initGost94 hconfig, List.append_nil]

/-! ### The bytes of a lane and of the lanes -/

theorem leBytes_getD {n k : Nat} (v : Nat) (h : k < n) : (leBytes n v).getD k 0 = BitVec.ofNat 8 (v / 256 ^ k) := by
  induction n generalizing v k with
  | zero => omega
  | succ n ih =>
    cases k with
    | zero => simp [leBytes]
    | succ k =>
      rw [leBytes, List.getD_cons_succ, ih _ (Nat.lt_of_succ_lt_succ h), Nat.div_div_eq_div_mul, Nat.pow_succ']

/-- Byte `k` of a word64 is its bits `8k+7 .. 8k` (R64). -/
theorem toLe64_getD (v : Word64) {k : Nat} (h : k < 8) : (toLe64 v).getD k 0 = v.extractLsb' (8 * k) 8 := by
  rw [toLe64, leBytes_getD _ h]
  apply BitVec.eq_of_toNat_eq
  rw [BitVec.toNat_ofNat, BitVec.extractLsb'_toNat, Nat.shiftRight_eq_div_pow, Nat.pow_mul]

/-- Bits `8k+7 .. 8k` of a word read from eight bytes are byte `k`. -/
theorem extractLsb'_le64 {b : List Byte} (hb : b.length = 8) {k : Nat} (h : k < 8) :
    (le64 b).extractLsb' (8 * k) 8 = b.getD k 0 := by
  rw [← toLe64_getD _ h, toLe64_le64 b hb]

theorem flatMap_toLe64_getD (ws : List Word64) (j : Nat) :
    (ws.flatMap toLe64).getD j 0 = (toLe64 (ws.getD (j / 8) 0)).getD (j % 8) 0 := by
  induction ws generalizing j with
  | nil =>
    rw [List.flatMap_nil, List.getD_nil, List.getD_nil, toLe64_getD _ (Nat.mod_lt j (by decide))]
    exact BitVec.extractLsb'_zero.symm
  | cons w ws ih =>
    rw [List.flatMap_cons]
    by_cases hfirst : j < 8
    · rw [List.getD_append _ _ _ _ (by simpa using hfirst), Nat.div_eq_of_lt hfirst, Nat.mod_eq_of_lt hfirst, List.getD_cons_zero]
    · have hdiv : j / 8 = (j - 8) / 8 + 1 := by omega
      have hmod : (j - 8) % 8 = j % 8 := by omega
      rw [List.getD_append_right _ _ _ _ (by simpa using hfirst), toLe64_length, ih, hmod, hdiv, List.getD_cons_succ]

/-- State byte `j` is byte `j mod 8` of lane `j div 8` (R211). -/
theorem lanes_bytes_getD (a : Lanes) {j : Nat} (h : j < 200) :
    a.bytes.getD j 0 = (a[j / 8]).extractLsb' (8 * (j % 8)) 8 := by
  have hlane : a.toList.getD (j / 8) 0 = a[j / 8] := by simp [List.getD, show j / 8 < 25 by omega]
  rw [Lanes.bytes, flatMap_toLe64_getD, hlane, toLe64_getD _ (Nat.mod_lt j (by decide))]

theorem slice_getD (b : List Byte) {i j k : Nat} (h : k < j - i) : (slice b i j).getD k 0 = b.getD (i + k) 0 := by
  simp [slice, List.getD, h]

/-! ### The XOR fold -/

/-- Lane `i` after the fold (R212 step 1). -/
theorem keccakFold_getElem (rate : Nat) (a : Lanes) (blk : List Byte) {i : Nat} (h : i < 25) :
    (keccakFold rate a blk)[i] = if i < rate / 8 then a[i] ^^^ le64 (slice blk (8 * i) (8 * i + 8)) else a[i] := by
  simp [keccakFold]

/-- Settles O23: the fold is lane-wise, XOR is bit-wise, and byte `j mod 8` of the block's lane `j div 8` is block byte `j`. -/
theorem keccakFoldXorsTheRateBytes : Obligations.KeccakFoldXorsTheRateBytes := by
  intro rate a blk hlanes _ hblk j
  have hj := j.isLt
  refine ⟨lanes_bytes_getD a hj, ?_⟩
  rw [lanes_bytes_getD _ hj, lanes_bytes_getD _ hj, keccakFold_getElem rate a blk (by omega)]
  by_cases hrate : j.val < rate
  · have hslice : (slice blk (8 * (j.val / 8)) (8 * (j.val / 8) + 8)).length = 8 := by
      rw [slice_length _ _ _ (by omega), Nat.add_sub_cancel_left]
    have hbyte : 8 * (j.val / 8) + j.val % 8 = j.val := Nat.div_add_mod j.val 8
    rw [if_pos hrate, if_pos (by omega), BitVec.extractLsb'_xor, extractLsb'_le64 hslice (Nat.mod_lt _ (by decide)),
      slice_getD _ (by omega), hbyte]
  · rw [if_neg hrate, if_neg (by omega)]

end Sys2Proof.Machine
end

section
/-! Proofs about 30_encoding.md: which header words are legal and which rows they select (R81 to R88, R92), the step that fetches a
command or an illegal header, the payload of INIT.GOST94 (R85), and long ABSORB (R91). -/

namespace Sys2Proof.Machine

/-! ### The fields of a header word -/

theorem decodeOp_eq_some_iff {v : BitVec 4} {op : Op} : decodeOp v = some op ↔ v = op.code := by
  refine ⟨fun h => ?_, fun h => h ▸ decodeOp_code op⟩
  unfold decodeOp at h
  split_ifs at h <;> cases h <;> assumption

theorem decodeEngine_eq_some_iff {v : BitVec 4} {eng : Engine} : decodeEngine v = some eng ↔ v = eng.code := by
  refine ⟨fun h => ?_, fun h => h ▸ decodeEngine_code eng⟩
  unfold decodeEngine at h
  split_ifs at h <;> cases h <;> assumption

/-- What a legal header word is (R87), field by field. -/
theorem decodeHeader_eq_ok_iff {w : Word32} {h : Header} :
    decodeHeader w = .ok h ↔
      w.extractLsb' 28 4 = h.op.code ∧ w.extractLsb' 24 4 = h.eng.code ∧ w.extractLsb' 16 8 = 0 ∧
        (w.extractLsb' 0 16).toNat = h.len ∧ legalLen h.op h.eng h.len = true := by
  constructor
  · intro hok
    unfold decodeHeader at hok
    split at hok
    · cases hok
    next hrsv =>
      split at hok
      · cases hok
      · cases hok
      next op eng hop heng =>
        dsimp only at hok
        split at hok
        next hlegal =>
          cases hok
          exact ⟨decodeOp_eq_some_iff.mp hop, decodeEngine_eq_some_iff.mp heng, not_not.mp hrsv, rfl, hlegal⟩
        · cases hok
  · rintro ⟨hop, heng, hrsv, hlen, hlegal⟩
    simp only [decodeHeader, hrsv, hop, heng, hlen, hlegal, decodeOp_code, decodeEngine_code, ne_eq, not_true_eq_false, if_true,
      if_false]

/-- A word is its four fields of R81, most significant first. -/
theorem append_header_fields (w : Word32) :
    w.extractLsb' 28 4 ++ w.extractLsb' 24 4 ++ w.extractLsb' 16 8 ++ w.extractLsb' 0 16 = w := by
  have hjoin (i m n : Nat) : w.extractLsb' (i + m) n ++ w.extractLsb' i m = w.extractLsb' i (n + m) :=
    BitVec.extractLsb'_append_extractLsb'_eq_extractLsb' rfl
  rw [hjoin 24 4 4, hjoin 16 8 8, hjoin 0 16 16, BitVec.extractLsb'_eq_self]

theorem eq_iff_header_fields {v w : Word32} :
    v = w ↔ v.extractLsb' 28 4 = w.extractLsb' 28 4 ∧ v.extractLsb' 24 4 = w.extractLsb' 24 4 ∧
      v.extractLsb' 16 8 = w.extractLsb' 16 8 ∧ v.extractLsb' 0 16 = w.extractLsb' 0 16 := by
  refine ⟨fun h => h ▸ ⟨rfl, rfl, rfl, rfl⟩, fun ⟨hop, heng, hrsv, hlen⟩ => ?_⟩
  rw [← append_header_fields v, ← append_header_fields w, hop, heng, hrsv, hlen]

/-! ### What decodes is well formed -/

/-- The command that a legal header selects with the payload it announces (R84, R92). -/
theorem header_instr_of_legalLen {h : Header} {p : List Byte} (hlegal : legalLen h.op h.eng h.len = true)
    (hmax : h.len ≤ lenMax) (hp : p.length = h.len) :
    (h.instr p).wellFormed = true ∧ (h.instr p).op = h.op ∧ (h.instr p).engine = h.eng ∧ (h.instr p).payload = p := by
  obtain ⟨op, eng, len⟩ := h
  cases hp
  cases op with
  | absorb => cases eng <;> exact ⟨decide_eq_true hmax, rfl, rfl, rfl⟩
  | init =>
    cases eng with
    | sha1 | sha3 => exact ⟨rfl, rfl, rfl, (List.eq_nil_of_length_eq_zero (beq_iff_eq.mp hlegal)).symm⟩
    | gost94 => exact ⟨hlegal, rfl, rfl, rfl⟩
  | finalize =>
    have hempty : [] = p := (List.eq_nil_of_length_eq_zero (beq_iff_eq.mp hlegal)).symm
    cases eng <;> exact ⟨rfl, rfl, rfl, hempty⟩

/-- A legal header word is the header of the command it selects. -/
theorem header_instr_header {w : Word32} {h : Header} {p : List Byte} (hok : decodeHeader w = .ok h) (hp : p.length = h.len) :
    (h.instr p).wellFormed = true ∧ (h.instr p).payload = p ∧ (h.instr p).header = w := by
  obtain ⟨hop, heng, hrsv, hlen, hlegal⟩ := decodeHeader_eq_ok_iff.mp hok
  have hmax : h.len ≤ lenMax := hlen ▸ Nat.le_of_lt_succ (w.extractLsb' 0 16).isLt
  obtain ⟨hwf, hiop, hieng, hipayload⟩ := header_instr_of_legalLen hlegal hmax hp
  obtain ⟨hfop, hfeng, hfrsv, hflen⟩ := header_fields (h.instr p)
  refine ⟨hwf, hipayload, eq_iff_header_fields.mpr ⟨?_, ?_, ?_, ?_⟩⟩
  · rw [hfop, hiop, hop]
  · rw [hfeng, hieng, heng]
  · rw [hfrsv, hrsv]
  · rw [hflen, hipayload, hp, ← hlen, BitVec.ofNat_toNat, BitVec.setWidth_eq]

/-- Settles O2: header and payload as decoded are the two parts of the command's encoding. -/
theorem decodedBytesAreTheEncoding : Obligations.DecodedBytesAreTheEncoding := by
  intro bs i hdecode
  have hsize := size_le_of_decode_command hdecode
  obtain ⟨hdr, p, rest, h, rfl, hlen, hok, hp, rfl⟩ := decode_eq_command_iff.mp hdecode
  obtain ⟨hwf, hpayload, hheader⟩ := header_instr_header hok hp
  refine ⟨hwf, hsize, ?_⟩
  rw [encode, hheader, toLe32_le32 hdr hlen, Instr.size, hpayload, ← hlen, ← List.length_append, ← List.append_assoc,
    List.take_left]

/-! ### Rows of the opcode map, and illegal headers -/

/-- The one legal `LEN` of a command that is not an ABSORB (R84). -/
def fixedLen (op : Op) (eng : Engine) : Nat := if op = .init ∧ eng = .gost94 then 160 else 0

theorem legalLen_iff (op : Op) (eng : Engine) (len : Nat) : legalLen op eng len = true ↔ op = .absorb ∨ len = fixedLen op eng := by
  cases op with
  | absorb => exact iff_of_true rfl (.inl rfl)
  | init => cases eng <;> simp [legalLen, fixedLen, gostConfigLen]
  | finalize => cases eng <;> simp [legalLen, fixedLen]

/-- The rows of R92 in the fields of R81. -/
theorem opcodeRows_value : ∀ r ∈ opcodeRows,
    r.value.extractLsb' 28 4 = r.op.code ∧ r.value.extractLsb' 24 4 = r.eng.code ∧ r.value.extractLsb' 16 8 = 0 ∧
      r.value.extractLsb' 0 16 = BitVec.ofNat 16 (fixedLen r.op r.eng) := by
  decide

/-- Only an ABSORB row leaves a field free, its `LEN` (R92). -/
theorem opcodeRows_mask : ∀ r ∈ opcodeRows,
    r.mask.extractLsb' 28 4 = BitVec.allOnes 4 ∧ r.mask.extractLsb' 24 4 = BitVec.allOnes 4 ∧
      r.mask.extractLsb' 16 8 = BitVec.allOnes 8 ∧
      r.mask.extractLsb' 0 16 = if r.op = .absorb then 0 else BitVec.allOnes 16 := by
  decide

theorem masked_len_iff_legalLen (op : Op) (eng : Engine) (len : BitVec 16) :
    (len &&& if op = .absorb then 0 else BitVec.allOnes 16) = BitVec.ofNat 16 (fixedLen op eng) ↔
      legalLen op eng len.toNat = true := by
  rw [legalLen_iff]
  by_cases hop : op = .absorb
  · subst hop
    exact iff_of_true BitVec.and_zero (.inl rfl)
  · have hsmall : fixedLen op eng < 2 ^ 16 := by unfold fixedLen; split <;> decide
    rw [if_neg hop, BitVec.and_allOnes, or_iff_right hop, ← BitVec.toNat_inj, BitVec.toNat_ofNat, Nat.mod_eq_of_lt hsmall]

/-- A row selects exactly the legal headers with its `OP` and `ENG`. -/
theorem selects_iff_decodeHeader {r : OpcodeRow} (hr : r ∈ opcodeRows) (w : Word32) :
    r.selects w = true ↔ decodeHeader w = .ok { op := r.op, eng := r.eng, len := (w.extractLsb' 0 16).toNat } := by
  obtain ⟨hvop, hveng, hvrsv, hvlen⟩ := opcodeRows_value r hr
  obtain ⟨hmop, hmeng, hmrsv, hmlen⟩ := opcodeRows_mask r hr
  simp only [OpcodeRow.selects, beq_iff_eq, eq_iff_header_fields, BitVec.extractLsb'_and, hvop, hveng, hvrsv, hvlen, hmop, hmeng,
    hmrsv, hmlen, BitVec.and_allOnes, masked_len_iff_legalLen, decodeHeader_eq_ok_iff, true_and]

theorem opcodeRows_eq_of_codes : ∀ r₁ ∈ opcodeRows, ∀ r₂ ∈ opcodeRows, r₁.op = r₂.op → r₁.eng = r₂.eng → r₁ = r₂ := by
  decide

theorem exists_opcodeRow (op : Op) (eng : Engine) : ∃ r ∈ opcodeRows, r.op = op ∧ r.eng = eng := by
  cases op <;> cases eng <;> decide

/-- The fields of R81, read by division. -/
theorem header_fields_toNat (w : Word32) :
    (w.extractLsb' 28 4).toNat = w.toNat / 2 ^ 28 ∧ (w.extractLsb' 24 4).toNat = w.toNat / 2 ^ 24 % 2 ^ 4 ∧
      (w.extractLsb' 16 8).toNat = w.toNat / 2 ^ 16 % 2 ^ 8 ∧ (w.extractLsb' 0 16).toNat = w.toNat % 2 ^ 16 := by
  have hw := w.isLt
  simp only [BitVec.extractLsb'_toNat, Nat.shiftRight_eq_div_pow, Nat.pow_zero, Nat.div_one, and_true]
  exact Nat.mod_eq_of_lt (by omega)

/-- Settles O3: a row selects the legal headers with its `OP` and `ENG`, and each pair of these has one row. -/
theorem everyHeaderIsOneRowOrIllegal : Obligations.EveryHeaderIsOneRowOrIllegal := by
  refine ⟨fun w r₁ r₂ hr₁ hr₂ hsel₁ hsel₂ => ?_, fun w => ?_⟩
  · rw [selects_iff_decodeHeader hr₁] at hsel₁
    rw [selects_iff_decodeHeader hr₂, hsel₁] at hsel₂
    injection hsel₂ with hfields
    injection hfields with hop heng
    exact opcodeRows_eq_of_codes r₁ hr₁ r₂ hr₂ hop heng
  cases hdecode : decodeHeader w with
  | ok h =>
    obtain ⟨r, hr, hop, heng⟩ := exists_opcodeRow h.op h.eng
    obtain ⟨-, -, -, hlen, -⟩ := decodeHeader_eq_ok_iff.mp hdecode
    obtain ⟨-, -, -, hlow⟩ := header_fields_toNat w
    have hcount : w.toNat % 65536 = h.len := hlow.symm.trans hlen
    refine ⟨r, hr, (selects_iff_decodeHeader hr w).mpr ?_, ?_⟩
    · rw [hdecode, hop, heng, hlen]
    · rw [hop, heng, hcount]
  | error why =>
    intro r hr
    by_contra hsel
    rw [Bool.not_eq_false, selects_iff_decodeHeader hr, hdecode] at hsel
    cases hsel

/-! ### The four tests -/

theorem mem_op_codes_iff (n : Nat) : n ∈ [1, 2, 3] ↔ ∃ op : Op, n = op.code.toNat := by
  constructor
  · simp only [List.mem_cons, List.not_mem_nil, or_false]
    rintro (rfl | rfl | rfl)
    exacts [⟨.init, rfl⟩, ⟨.absorb, rfl⟩, ⟨.finalize, rfl⟩]
  · rintro ⟨op, rfl⟩
    cases op <;> decide

theorem mem_engine_codes_iff (n : Nat) : n ∈ [1, 2, 3] ↔ ∃ eng : Engine, n = eng.code.toNat := by
  constructor
  · simp only [List.mem_cons, List.not_mem_nil, or_false]
    rintro (rfl | rfl | rfl)
    exacts [⟨.sha1, rfl⟩, ⟨.sha3, rfl⟩, ⟨.gost94, rfl⟩]
  · rintro ⟨eng, rfl⟩
    cases eng <;> decide

/-- The test of `LEN` (R84) by the value of the byte of `OP` and `ENG`. -/
theorem legalLen_iff_code (op : Op) (eng : Engine) (len : Nat) :
    legalLen op eng len = true ↔
      op.code.toNat = 2 ∨ len = if 16 * op.code.toNat + eng.code.toNat = 0x13 then 160 else 0 := by
  have habsorb : op = .absorb ↔ op.code.toNat = 2 := by cases op <;> decide
  have hfixed : fixedLen op eng = if 16 * op.code.toNat + eng.code.toNat = 0x13 then 160 else 0 := by
    cases op <;> cases eng <;> rfl
  rw [legalLen_iff, habsorb, hfixed]

/-- A header is legal when it passes the four tests of R87. -/
theorem exists_decodeHeader_ok_iff (w : Word32) :
    (∃ h, decodeHeader w = .ok h) ↔
      w.toNat / 2 ^ 16 % 2 ^ 8 = 0 ∧ w.toNat / 2 ^ 28 ∈ [1, 2, 3] ∧ w.toNat / 2 ^ 24 % 2 ^ 4 ∈ [1, 2, 3] ∧
        (w.toNat / 2 ^ 28 = 2 ∨ w.toNat % 2 ^ 16 = if w.toNat / 2 ^ 24 = 0x13 then 160 else 0) := by
  obtain ⟨hop, heng, hrsv, hlen⟩ := header_fields_toNat w
  have hbyte : w.toNat / 2 ^ 24 = 16 * (w.toNat / 2 ^ 28) + w.toNat / 2 ^ 24 % 2 ^ 4 := by omega
  rw [mem_op_codes_iff, mem_engine_codes_iff]
  simp only [decodeHeader_eq_ok_iff, ← BitVec.toNat_inj, hop, heng, hrsv, hlen, legalLen_iff_code]
  constructor
  · rintro ⟨h, hcop, hceng, hzero, hcount, hlegal⟩
    rw [← hcop, ← hceng, ← hbyte, ← hcount] at hlegal
    exact ⟨hzero, ⟨h.op, hcop⟩, ⟨h.eng, hceng⟩, hlegal⟩
  · rintro ⟨hzero, ⟨op, hcop⟩, ⟨eng, hceng⟩, hlegal⟩
    rw [hbyte, hcop, hceng] at hlegal
    exact ⟨⟨op, eng, w.toNat % 2 ^ 16⟩, hcop, hceng, hzero, rfl, hlegal⟩

theorem exists_error_iff_not_exists_ok {ε α : Type} (x : Except ε α) : (∃ e, x = .error e) ↔ ¬ ∃ a, x = .ok a := by
  cases x <;> simp

/-- Settles O4: a header is illegal when it is not legal. -/
theorem headerIsRejectedByTheFourTests : Obligations.HeaderIsRejectedByTheFourTests := by
  intro w
  rw [exists_error_iff_not_exists_ok, exists_decodeHeader_ok_iff]
  tauto

/-! ### The step at the front of CMD -/

/-- Settles O8: the command's effect is what its execution does. -/
theorem stepExecutesTheDecodedCommand : Obligations.StepExecutesTheDecodedCommand := by
  intro s i hfault hdecode
  rw [step_of_command hfault hdecode, ← exec_eq_effect]
  rfl

/-- Settles O11: the four bytes are an illegal header whatever follows them, and raising the fault changes FAULT alone. -/
theorem illegalHeaderRaisesIllegalCmd : Obligations.IllegalHeaderRaisesIllegalCmd := by
  intro s why hfault hlen herror
  have hdecode : decode s.cmd = .illegal why :=
    decode_eq_illegal_iff.mpr ⟨s.cmd.take 4, s.cmd.drop 4, (List.take_append_drop 4 s.cmd).symm, List.length_take_of_le hlen, herror⟩
  exact ⟨raiseFault .illegalCmd (s.consume 4), step_of_illegal hfault hdecode, raiseFault_of_no_fault _ _ hfault, rfl, rfl, rfl, rfl⟩

/-! ### The payload of INIT.GOST94 -/

/-- The range check of R168 step 1, byte by byte. -/
theorem sboxInRange_iff (p : List Byte) : sboxInRange p = true ↔ ∀ j, j < 128 → (p.getD j 0).toNat ≤ 15 := by
  simp only [sboxInRange, List.all_eq_true, decide_eq_true_eq]
  constructor
  · intro h j hj
    by_cases hlen : j < p.length
    · rw [List.getD_eq_getElem _ _ hlen]
      exact h _ (List.mem_take_iff_getElem.mpr ⟨j, by omega, rfl⟩)
    · rw [List.getD_eq_default _ _ (Nat.le_of_not_lt hlen)]
      decide
  · intro h b hb
    obtain ⟨j, hj, rfl⟩ := List.mem_take_iff_getElem.mp hb
    rw [← List.getD_eq_getElem _ 0]
    exact h j (by omega)

/-- Entry `k` of table `i` is payload byte `16i + k` (R85), where this fits four bits. -/
theorem sboxOperand_toNat {p : List Byte} (h : sboxInRange p = true) (i : Fin 8) (k : Fin 16) :
    ((sboxOperand p)[i][k]).toNat = (p.getD (16 * i.val + k.val) 0).toNat := by
  have hbyte : (p.getD (16 * i.val + k.val) 0).toNat ≤ 15 := (sboxInRange_iff p).mp h _ (by omega)
  simp only [sboxOperand, payloadByte, Fin.getElem_fin, Vector.getElem_ofFn, BitVec.toNat_setWidth]
  exact Nat.mod_eq_of_lt (Nat.lt_succ_of_le hbyte)

theorem ivOperand_getElem (p : List Byte) (j : Fin 32) : (ivOperand p)[j] = p.getD (128 + j.val) 0 := by
  simp only [ivOperand, payloadByte, Fin.getElem_fin, Vector.getElem_ofFn]

/-- Settles O36: the range check passes, and the configured context is read from the payload. -/
theorem initGost94LoadsTheConfiguration : Obligations.InitGost94LoadsTheConfiguration := by
  intro p s _ hsbox
  have hrange : sboxInRange p = true := (sboxInRange_iff p).mpr hsbox
  exact ⟨sboxOperand p, ivOperand p, sboxOperand_toNat hrange, ivOperand_getElem p, if_pos hrange⟩

/-! ### Long ABSORB -/

/-- The pieces of a long ABSORB are payloads (R91). -/
theorem pieces_length_le {fuel : Nat} {data : List Byte} (hfuel : data.length ≤ fuel) :
    ∀ p ∈ pieces fuel data, p.length ≤ lenMax := by
  induction fuel generalizing data with
  | zero =>
    intro p hp
    cases List.mem_singleton.mp hp
    omega
  | succ fuel ih =>
    intro p hp
    rw [pieces] at hp
    split at hp
    next hshort =>
      cases List.mem_singleton.mp hp
      exact hshort
    next hlong =>
      obtain rfl | hp := List.mem_cons.mp hp
      · exact List.length_take_le _ _
      · have hrest : (data.drop lenMax).length ≤ fuel := by
          rw [List.length_drop]
          simp only [lenMax] at hlong ⊢
          omega
        exact ih hrest p hp

theorem absorbInstr_wellFormed {e : Engine} {p : List Byte} (h : p.length ≤ lenMax) : (absorbInstr e p).wellFormed = true := by
  cases e <;> exact decide_eq_true h

/-- The Block Buffer does not see where one ABSORB ends and the next begins (R105). -/
theorem bufAbsorb_append {σ : Type} (size : Nat) (block : σ → List Byte → σ) (buf : List Byte) (x : σ) (p q : List Byte) :
    bufAbsorb size block buf x (p ++ q) =
      bufAbsorb size block (bufAbsorb size block buf x p).1 (bufAbsorb size block buf x p).2 q := by
  induction p generalizing buf x with
  | nil => rfl
  | cons d ds ih =>
    rw [List.cons_append, bufAbsorb, bufAbsorb]
    split
    · exact ih _ _
    · exact ih _ _

/-- A map that commutes with the block callback commutes with the Block Buffer. -/
theorem bufAbsorb_map {σ : Type} {size : Nat} {block : σ → List Byte → σ} {f : σ → σ}
    (hf : ∀ x blk, block (f x) blk = f (block x blk)) (buf : List Byte) (x : σ) (p : List Byte) :
    bufAbsorb size block buf (f x) p = ((bufAbsorb size block buf x p).1, f (bufAbsorb size block buf x p).2) := by
  induction p generalizing buf x with
  | nil => rfl
  | cons d ds ih =>
    rw [bufAbsorb, bufAbsorb, hf]
    split
    · exact ih _ _
    · exact ih _ _

theorem sha1Absorb_append (c : Sha1Ctx) (p q : List Byte) : c.absorb (p ++ q) = (c.absorb p).absorb q := by
  have hbits : BitVec.ofNat 64 (8 * (p ++ q).length) = BitVec.ofNat 64 (8 * p.length) + BitVec.ofNat 64 (8 * q.length) := by
    rw [List.length_append, Nat.mul_add, BitVec.ofNat_add]
  simp only [Sha1Ctx.absorb, bufAbsorb_append, hbits, BitVec.add_assoc]

theorem sha3Absorb_append (params : Sha3Params) (c : Sha3Ctx) (p q : List Byte) :
    c.absorb params (p ++ q) = (c.absorb params p).absorb params q := by
  simp only [Sha3Ctx.absorb, bufAbsorb_append]

/-- The callback of GOST94 does not look at the buffer that its context still holds. -/
theorem gostFullBlock_map_buf (b : List Byte) (x : Except FaultCode GostCtx) (blk : List Byte) :
    gostFullBlock (x.map fun c => { c with buf := b }) blk = (gostFullBlock x blk).map fun c => { c with buf := b } := by
  cases x with
  | error f => rfl
  | ok c =>
    simp only [Except.map, gostFullBlock, gostCallback, GostCtx.dataBlock]
    cases lenAdd c.n 32 <;> rfl

theorem gostRebuffer_eq_map (r : List Byte × Except FaultCode GostCtx) :
    gostRebuffer r = r.2.map fun c => { c with buf := r.1 } := by
  obtain ⟨b, x⟩ := r
  cases x <;> rfl

/-- ABSORB.GOST94 in two parts: a fault of the first is that of the whole. -/
theorem gostAbsorb_append (c : GostCtx) (p q : List Byte) : c.absorb (p ++ q) = (c.absorb p).bind (·.absorb q) := by
  simp only [GostCtx.absorb, bufAbsorb_append]
  obtain ⟨b, x⟩ := bufAbsorb gostBlock gostFullBlock c.buf (.ok c) p
  cases x with
  | error f => simp only [gostRebuffer, bufAbsorb_gost_error, Except.bind]
  | ok c₁ =>
    have hbuf := bufAbsorb_map (size := gostBlock) (gostFullBlock_map_buf b) b (.ok c₁) q
    simp only [Except.map] at hbuf
    simp only [gostRebuffer_eq_map, Except.map, Except.bind, hbuf]
    cases (bufAbsorb gostBlock gostFullBlock b (.ok c₁) q).2 <;> rfl

/-- An ABSORB without a fault is two, the second with the rest of the data (R123). -/
theorem exec_absorb_append {e : Engine} {p q : List Byte} {s t : State} (h : exec (absorbInstr e (p ++ q)) s = .next t)
    (hfault : t.fault = 0) :
    ∃ u, exec (absorbInstr e p) s = .next u ∧ exec (absorbInstr e q) u = .next t := by
  rw [← h]
  cases e with
  | sha1 => exact ⟨_, rfl, by simp only [absorbInstr, Header.instr, exec, execAbsorbSha1, sha1Absorb_append]⟩
  | sha3 => exact ⟨_, rfl, by simp only [absorbInstr, Header.instr, exec, execAbsorbSha3, sha3Absorb_append]⟩
  | gost94 =>
    obtain rfl := exec_eq_next_iff.mp h
    obtain ⟨-, v, d, heff⟩ := applyEffect_fault_eq_zero hfault
    obtain ⟨hcfg, c, habsorb, -, -⟩ := effect_absorbGost94_ok heff
    have hparts := gostAbsorb_append s.gost p q
    rw [habsorb] at hparts
    cases hfirst : s.gost.absorb p with
    | error f => rw [hfirst] at hparts; cases hparts
    | ok c₁ =>
      rw [hfirst] at hparts
      obtain ⟨⟨-, hkept⟩, -⟩ := gostAbsorb_ok hfirst
      have hcfg₁ : c₁.cfg = true := (congrArg GostCtx.cfg hkept).trans hcfg
      refine ⟨{ s with gost := c₁ }, exec_absorbGost94_of_absorb hcfg hfirst, ?_⟩
      exact (exec_absorbGost94_of_absorb (s := { s with gost := c₁ }) hcfg₁ hparts.symm).trans
        (exec_absorbGost94_of_absorb hcfg habsorb).symm

theorem execAll_cons_of_exec {i : Instr} {is : List Instr} {s u : State} (h : exec i s = .next u) :
    execAll (i :: is) s = execAll is u := by
  rw [execAll, h]

/-- The pieces absorbed in order, by induction along the splitting of R91. -/
theorem execAll_pieces {e : Engine} {fuel : Nat} {data : List Byte} {s t : State}
    (h : exec (absorbInstr e data) s = .next t) (hfault : t.fault = 0) :
    execAll ((pieces fuel data).map (absorbInstr e)) s = .next t := by
  induction fuel generalizing data s with
  | zero => rw [pieces, List.map_singleton, execAll_cons_of_exec h, execAll_nil]
  | succ fuel ih =>
    rw [pieces]
    split
    · rw [List.map_singleton, execAll_cons_of_exec h, execAll_nil]
    · rw [← List.take_append_drop lenMax data] at h
      obtain ⟨u, hfirst, hrest⟩ := exec_absorb_append h hfault
      rw [List.map_cons, execAll_cons_of_exec hfirst]
      exact ih hrest

/-- Settles O49: every piece is a payload, and the pieces absorbed in order are the data absorbed. -/
theorem longAbsorbIsSound : Obligations.LongAbsorbIsSound := by
  intro e data
  refine ⟨fun i hi => ?_, fun s t hexec hfault => execAll_pieces hexec hfault⟩
  obtain ⟨p, hp, rfl⟩ := List.mem_map.mp hi
  exact absorbInstr_wellFormed (pieces_length_le le_rfl p hp)

end Sys2Proof.Machine
end

section
/-! Proofs about 40_block_buffer.md: absorbing in any chunking (R105), and the blocks that a message dispatches (R103). -/

namespace Sys2Proof.Machine

/-- Settles O16, by induction on the first part (`bufAbsorb_append`). -/
theorem bufferIgnoresChunking : Obligations.BufferIgnoresChunking :=
  fun _ size block buf c x y => bufAbsorb_append size block buf c x y

/-- A message absorbed chunk by chunk is the whole message absorbed at once (R105). -/
theorem bufAbsorb_foldl_chunks {σ : Type} (size : Nat) (block : σ → List Byte → σ) (chunks : List (List Byte))
    (r : List Byte × σ) :
    chunks.foldl (fun r x => bufAbsorb size block r.1 r.2 x) r = bufAbsorb size block r.1 r.2 chunks.flatten := by
  induction chunks generalizing r with
  | nil => rfl
  | cons x xs ih => rw [List.foldl_cons, ih, List.flatten_cons, bufAbsorb_append]

theorem residue_length (n : Nat) (m : List Byte) : (residue n m).length = m.length % n := by
  rw [residue, List.length_drop, Nat.mod_def]

/-- The recording callback, from nothing recorded, ends with the dispatched blocks themselves. -/
theorem foldl_record_blocks (blks : List (List Byte)) : blks.foldl (fun seen blk => seen ++ [blk]) [] = blks := by
  rw [List.foldl_append_eq_append, List.nil_append, ← List.flatMap_def, List.flatMap_singleton']

/-- From an empty buffer any chunking of a message dispatches its whole blocks in order and keeps the residue (R103). -/
theorem bufAbsorb_record_chunks {size : Nat} (hpos : 0 < size) (chunks : List (List Byte)) :
    chunks.foldl (fun r x => bufAbsorb size (fun seen blk => seen ++ [blk]) r.1 r.2 x) ([], []) =
      (residue size chunks.flatten, blocksOf size chunks.flatten) := by
  rw [bufAbsorb_foldl_chunks, bufAbsorb_eq_blocks _ [] _ _ hpos, List.nil_append, foldl_record_blocks]

/-- The blocks of a finalized message: its whole blocks, then the zero-filled residue if there is one (R103). -/
def finalizedBlocks (size : Nat) (m : List Byte) : List (List Byte) :=
  if m.length % size = 0 then blocksOf size m else blocksOf size m ++ [zeroFill size (residue size m)]

/-- Finalizing dispatches one zero-filled block more, exactly if the message left a residue (R102, R103). -/
theorem bufFinalize_record_residue (size : Nat) (m : List Byte) :
    bufFinalize size (fun seen blk _ => seen ++ [blk]) (residue size m) (blocksOf size m) = ([], finalizedBlocks size m) := by
  rw [bufFinalize, finalizedBlocks, residue_length]
  split
  next hempty => rw [List.length_eq_zero_iff.mp ((residue_length size m).trans hempty)]
  next => rfl

theorem finalizedBlocks_block_length {size : Nat} (hpos : 0 < size) {m blk : List Byte}
    (hblk : blk ∈ finalizedBlocks size m) : blk.length = size := by
  rw [finalizedBlocks] at hblk
  split at hblk
  next => exact blocksOf_block_length hblk
  next =>
    obtain hwhole | hlast := List.mem_append.mp hblk
    · exact blocksOf_block_length hwhole
    · have hshort : (residue size m).length ≤ size := by
        rw [residue_length]
        exact (Nat.mod_lt _ hpos).le
      rw [List.mem_singleton.mp hlast, zeroFill_length size _ hshort]

/-- Settles O17: any chunking absorbs as the whole message does, and the cursor that `BufFinalize` tests is `n mod B`. -/
theorem bufferDispatchesWholeBlocksThenOnePadded : Obligations.BufferDispatchesWholeBlocksThenOnePadded := by
  intro size chunks hpos record m r f
  have habsorbed : r = (residue size m, blocksOf size m) := bufAbsorb_record_chunks hpos chunks
  have hfinal : f = ([], finalizedBlocks size m) := by
    simp only [f, habsorbed]
    exact bufFinalize_record_residue size m
  refine ⟨habsorbed, hfinal, ?_⟩
  rw [hfinal]
  exact fun _ => finalizedBlocks_block_length hpos

end Sys2Proof.Machine
end

section
/-! Proofs about 41_digest_commands.md: a message absorbed in any chunking (R123), the digests (R125 to R127), and the commands that
change nothing (R121, R129). -/

namespace Sys2Proof.Machine

/-! ### Commands that change nothing -/

/-- Settles O9. That a halted CORE has a step at all is the model's choice (assumption log 5). -/
theorem haltedCoreChangesNothing : Obligations.HaltedCoreChangesNothing := fun _ => step_of_fault

@[simp] theorem sha1Absorb_nil (c : Sha1Ctx) : c.absorb [] = c := by
  simp [Sha1Ctx.absorb]

@[simp] theorem sha3Absorb_nil (params : Sha3Params) (c : Sha3Ctx) : c.absorb params [] = c := by
  simp [Sha3Ctx.absorb]

@[simp] theorem gostAbsorb_nil (c : GostCtx) : c.absorb [] = .ok c := by
  simp [GostCtx.absorb, gostRebuffer]

theorem exec_absorbSha1 (p : List Byte) (s : State) : exec (.absorbSha1 p) s = .next { s with sha1 := s.sha1.absorb p } := rfl

theorem exec_absorbSha3 (p : List Byte) (s : State) :
    exec (.absorbSha3 p) s = .next { s with sha3 := s.sha3.absorb s.params p } := rfl

/-- ABSORB.GOST94 before any INIT.GOST94 (R169 step 1). -/
theorem exec_absorbGost94_of_unconfigured {p : List Byte} {s : State} (h : s.gost.cfg = false) :
    exec (.absorbGost94 p) s = .next (raiseFault .unconfigured s) := by
  simp only [exec, execAbsorbGost94, h, Bool.false_eq_true, if_false]

/-- Settles O44: a context that absorbs no bytes stays as it is; the check of CFG comes before (R169). -/
theorem emptyAbsorbChangesNothing : Obligations.EmptyAbsorbChangesNothing := by
  intro s
  refine ⟨?_, ?_, fun hcfg => ?_, fun hcfg hfault => ?_⟩
  · rw [exec_absorbSha1, sha1Absorb_nil]
  · rw [exec_absorbSha3, sha3Absorb_nil]
  · exact exec_absorbGost94_of_absorb hcfg (gostAbsorb_nil s.gost)
  · exact ⟨_, exec_absorbGost94_of_unconfigured hcfg, raiseFault_of_no_fault _ s hfault, rfl⟩

/-! ### Digest sizes -/

theorem sha1Words_bytes_length (h : Sha1Words) : h.bytes.length = 20 := by
  simp [Sha1Words.bytes]

theorem lanes_bytes_length (a : Lanes) : a.bytes.length = 200 := by
  simp [Lanes.bytes, List.length_flatMap]

/-- Each turn of the loop gives `rate` bytes until the last, so one turn for each byte wanted is enough (R216). -/
theorem squeezeLoop_length (leaf : Lanes → Lanes) {rate fuel need : Nat} (hpos : 0 < rate) (hrate : rate ≤ 200)
    (hfuel : need ≤ fuel) (a : Lanes) : (squeezeLoop leaf rate fuel need a).length = need := by
  induction fuel generalizing need a with
  | zero => exact (Nat.le_zero.mp hfuel).symm
  | succ fuel ih =>
    have hturn : (a.bytes.take rate).length = rate := List.length_take_of_le (by rwa [lanes_bytes_length])
    rw [squeezeLoop]
    split
    next hlast => exact List.length_take_of_le (by rwa [hturn])
    next hmore =>
      rw [List.length_append, hturn, ih (by omega)]
      omega

theorem squeeze_length (leaf : Lanes → Lanes) {rate : Nat} (hpos : 0 < rate) (hrate : rate ≤ 200) (d : Nat) (a : Lanes) :
    (squeeze leaf rate d a).length = d :=
  squeezeLoop_length leaf hpos hrate le_rfl a

/-- The empty buffer is legal: there is a block to fill. -/
theorem sha3Rate_pos (params : Sha3Params) : 0 < params.rate := sha3Initial_legal params

/-- The rate bytes lie within the 200 bytes of the state. -/
theorem sha3Rate_le (params : Sha3Params) : params.rate ≤ 200 := by
  obtain ⟨-, -, hhigh⟩ := params.rate_legal
  omega

/-- Settles O43: five words of four bytes, the squeezed bytes, and 32 bytes unless a fault was raised. -/
theorem digestSizes : Obligations.DigestSizes := by
  refine fun s t => ⟨fun hexec => ?_, fun hexec => ?_, fun hexec hfault => ?_⟩
  · cases hexec
    exact ⟨_, outWrite_out _ _, sha1Words_bytes_length _⟩
  · cases hexec
    exact ⟨_, outWrite_out _ _, squeeze_length _ (sha3Rate_pos _) (sha3Rate_le _) _ _⟩
  · obtain ⟨-, u, d, heff⟩ := applyEffect_fault_eq_zero (exec_eq_next_iff.mp hexec ▸ hfault)
    obtain ⟨hcfg, c, hflush, -⟩ := effect_finalizeGost94_ok heff
    rw [exec_finalizeGost94_of_flush hcfg hflush] at hexec
    cases hexec
    exact ⟨_, outWrite_out _ _, Vector.length_toList⟩

/-! ### ABSORB in any chunking -/

/-- A completed ABSORB of no bytes has put the context that was there (R129). -/
theorem put_of_absorb_nil {e : Engine} {s : State} {u : CtxUpdate} {d : List Byte}
    (h : effect (absorbInstr e []) s = .ok (u, d)) : s.put u = s := by
  cases e with
  | sha1 =>
    cases h
    simp only [State.put, sha1Absorb_nil]
  | sha3 =>
    cases h
    simp only [State.put, sha3Absorb_nil]
  | gost94 =>
    obtain ⟨-, c, habsorb, rfl, -⟩ := effect_absorbGost94_ok h
    rw [gostAbsorb_nil] at habsorb
    cases habsorb
    rfl

/-- A completed ABSORB is two, the second with the rest of the data (R123). -/
theorem effect_absorb_append {e : Engine} {p q d : List Byte} {s : State} {u : CtxUpdate}
    (h : effect (absorbInstr e (p ++ q)) s = .ok (u, d)) :
    ∃ v, effect (absorbInstr e p) s = .ok (v, []) ∧ effect (absorbInstr e q) (s.put v) = .ok (u, d) ∧
      (s.put v).put u = s.put u := by
  cases e with
  | sha1 =>
    refine ⟨.sha1 (s.sha1.absorb p), rfl, ?_⟩
    cases h
    exact ⟨by simp only [absorbInstr, Header.instr, effect, State.put, sha1Absorb_append], rfl⟩
  | sha3 =>
    refine ⟨.sha3 (s.sha3.absorb s.params p), rfl, ?_⟩
    cases h
    exact ⟨by simp only [absorbInstr, Header.instr, effect, State.put, sha3Absorb_append], rfl⟩
  | gost94 =>
    obtain ⟨hcfg, c, habsorb, rfl, rfl⟩ := effect_absorbGost94_ok h
    rw [gostAbsorb_append] at habsorb
    cases hfirst : s.gost.absorb p with
    | error f => rw [hfirst] at habsorb; cases habsorb
    | ok c₁ =>
      rw [hfirst] at habsorb
      have hrest : c₁.absorb q = .ok c := habsorb
      obtain ⟨⟨-, hkept⟩, -⟩ := gostAbsorb_ok hfirst
      have hcfg₁ : c₁.cfg = true := (congrArg GostCtx.cfg hkept).trans hcfg
      refine ⟨.gost c₁, ?_, ?_, rfl⟩
      · simp only [absorbInstr, Header.instr, effect, hcfg, if_true, hfirst, Except.map]
      · simp only [absorbInstr, Header.instr, effect, State.put, hcfg₁, if_true, hrest, Except.map]

/-- If one ABSORB of all the bytes completes, ABSORB commands with the bytes in any division do the same (R123). -/
theorem execAll_absorbs {e : Engine} {chunks : List (List Byte)} {is : List Instr} {s : State} {u : CtxUpdate}
    (h : effect (absorbInstr e chunks.flatten) s = .ok (u, [])) :
    execAll (chunks.map (absorbInstr e) ++ is) s = execAll is (s.put u) := by
  induction chunks generalizing s with
  | nil => rw [put_of_absorb_nil h, List.map_nil, List.nil_append]
  | cons p chunks ih =>
    rw [List.flatten_cons] at h
    obtain ⟨v, hfirst, hrest, hput⟩ := effect_absorb_append h
    rw [List.map_cons, List.cons_append, execAll_cons, hfirst, applyEffect, outWrite_nil, ih hrest, hput]

theorem execAll_singleton (i : Instr) (s : State) : execAll [i] s = exec i s := by
  rw [execAll_cons, execAll_nil, exec_eq_effect]

/-! ### The digest of a message -/

/-- The blocks of a longer message are the whole blocks of its front and those of the residue with what follows: by absorbing the
two parts one after the other (R105). -/
theorem blocksOf_append {n : Nat} (hn : 0 < n) (m x : List Byte) :
    blocksOf n (m ++ x) = blocksOf n m ++ blocksOf n (residue n m ++ x) := by
  have hparts := bufAbsorb_append n (fun seen blk => seen ++ [blk]) [] [] m x
  have hrest : (residue n m).length < n := by
    rw [residue_length]
    exact Nat.mod_lt _ hn
  simp only [bufAbsorb_eq_blocks _ _ _ _ hrest, bufAbsorb_eq_blocks _ [] _ _ hn, List.nil_append] at hparts
  have hblocks := congrArg Prod.snd hparts
  simpa only [List.foldl_append_eq_append, ← List.flatMap_def, List.flatMap_singleton', List.nil_append] using hblocks

/-- Only the residue decides how a SHA-1 message is padded. -/
theorem blocksOf_sha1Pad (m : List Byte) (len : Word64) :
    blocksOf 64 (sha1Pad m len) = blocksOf 64 m ++ blocksOf 64 (sha1Pad (residue 64 m) len) := by
  simp only [sha1Pad, residue_length, Nat.mod_mod, List.append_assoc]
  exact blocksOf_append (by decide) m _

/-- The padding bytes of a SHA-3 message depend on its residue only. -/
theorem sha3Pad_eq_append (params : Sha3Params) (m : List Byte) :
    ∃ x, sha3Pad params m = m ++ x ∧ sha3Pad params (residue params.rate m) = residue params.rate m ++ x := by
  simp only [sha3Pad, residue_length, Nat.mod_mod]
  split
  · exact ⟨_, rfl, rfl⟩
  · simp only [List.append_assoc]
    exact ⟨_, rfl, rfl⟩

/-- The padded residue of a SHA-3 message is its last block. -/
theorem blocksOf_sha3Pad (params : Sha3Params) (m : List Byte) :
    blocksOf params.rate (sha3Pad params m) =
      blocksOf params.rate m ++ [sha3Pad params (residue params.rate m)] := by
  have hrest : (residue params.rate m).length < params.rate := by
    rw [residue_length]
    exact Nat.mod_lt _ (sha3Rate_pos params)
  obtain ⟨x, hm, hresidue⟩ := sha3Pad_eq_append params m
  rw [hm, blocksOf_append (sha3Rate_pos params), ← hresidue,
    blocksOf_self (sha3Rate_pos params) (sha3Pad_length params _ hrest)]

/-- The hash state of a message absorbed from the initial message state is that of the padded message. -/
theorem sha1FinalState_absorb_initial (m : List Byte) : (Sha1Ctx.initial.absorb m).finalState.bytes = sha1Digest m := by
  have hctx : Sha1Ctx.initial.absorb m =
      { h := (blocksOf 64 m).foldl sha1Compress sha1Iv, nbits := BitVec.ofNat 64 (8 * m.length), buf := residue 64 m } := by
    have hblocks := bufAbsorb_eq_blocks (size := 64) sha1Compress [] sha1Iv m (by decide)
    simp [Sha1Ctx.absorb, sha1Block, hblocks]
  have hpos : (Sha1Ctx.initial.absorb m).pos < 64 := (sha1Absorb_legal sha1Initial_legal m).1
  rw [sha1FinalState_eq_pad _ hpos, hctx, ← List.foldl_append, ← blocksOf_sha1Pad, sha1Digest]

/-- Settles O22: one ABSORB of all the bytes leaves the whole blocks compressed and the residue pending, and the padding is that of
the residue. -/
theorem sha1DigestIgnoresChunking : Obligations.Sha1DigestIgnoresChunking := by
  intro chunks s hinit
  have habsorb : effect (absorbInstr .sha1 chunks.flatten) s = .ok (.sha1 (Sha1Ctx.initial.absorb chunks.flatten), []) := by
    rw [← hinit]
    rfl
  calc execAll (chunks.map .absorbSha1 ++ [.finalizeSha1]) s
    _ = exec .finalizeSha1 { s with sha1 := Sha1Ctx.initial.absorb chunks.flatten } :=
      (execAll_absorbs habsorb).trans (execAll_singleton _ _)
    _ = .next (outWrite (sha1Digest chunks.flatten) { s with sha1 := Sha1Ctx.initial }) := by
      rw [← sha1FinalState_absorb_initial]
      rfl
    _ = .next { s with out := s.out ++ sha1Digest chunks.flatten } := by
      rw [← hinit]
      rfl

/-- The sponge state of a message absorbed from the initial message state is that of the padded message. -/
theorem sha3FinalState_absorb_initial (params : Sha3Params) (m : List Byte) :
    squeeze (keccakLeaf params) params.rate params.outLen ((Sha3Ctx.initial.absorb params m).finalState params) =
      sha3Digest params m := by
  have hpos : (Sha3Ctx.initial.absorb params m).buf.length < params.rate :=
    sha3Absorb_legal (sha3Initial_legal params) m
  have hctx : Sha3Ctx.initial.absorb params m =
      { a := (blocksOf params.rate m).foldl (keccakAbsorbBlock (keccakLeaf params) params.rate) zeroLanes
        buf := residue params.rate m } := by
    simp only [Sha3Ctx.absorb, bufAbsorb_eq_blocks _ Sha3Ctx.initial.buf _ _ (sha3Rate_pos params)]
    rfl
  rw [Sha3Ctx.finalState, sha3PadBlock_eq_pad _ _ hpos, hctx, sha3Digest, blocksOf_sha3Pad, List.foldl_append]
  rfl

/-- Settles O29: one ABSORB of all the bytes leaves the whole blocks absorbed and the residue pending, and the last block is the
padded residue. -/
theorem sha3DigestIgnoresChunking : Obligations.Sha3DigestIgnoresChunking := by
  intro chunks s hinit
  have habsorb : effect (absorbInstr .sha3 chunks.flatten) s =
      .ok (.sha3 (Sha3Ctx.initial.absorb s.params chunks.flatten), []) := by
    rw [← hinit]
    rfl
  calc execAll (chunks.map .absorbSha3 ++ [.finalizeSha3]) s
    _ = exec .finalizeSha3 { s with sha3 := Sha3Ctx.initial.absorb s.params chunks.flatten } :=
      (execAll_absorbs habsorb).trans (execAll_singleton _ _)
    _ = .next (outWrite (sha3Digest s.params chunks.flatten) { s with sha3 := Sha3Ctx.initial }) := by
      rw [← sha3FinalState_absorb_initial]
      rfl
    _ = .next { s with out := s.out ++ sha3Digest s.params chunks.flatten } := by
      rw [← hinit]
      rfl

/-! ### The digest of a GOST94 message -/

theorem gostFold_append (sbox : SBox) (h : Bytes32) (xs ys : List (List Byte)) :
    gostFold sbox h (xs ++ ys) = gostFold sbox (gostFold sbox h xs) ys := List.foldl_append

/-- The data blocks after the whole ones are what `BufFinalize` dispatches for the residue (R103). -/
theorem gostDataBlocks_eq_append (m : List Byte) :
    gostDataBlocks m =
      blocksOf 32 m ++ (if (residue 32 m).length = 0 then [] else [zeroFill 32 (residue 32 m)]) := by
  rw [gostDataBlocks, residue_length]

/-- The zero bytes of the last data block add nothing to the checksum (R164). -/
theorem blockSum_gostDataBlocks (m : List Byte) :
    blockSum (gostDataBlocks m) = blockSum (blocksOf 32 m) + leValue (residue 32 m) := by
  have hlast : blockSum (if (residue 32 m).length = 0 then [] else [zeroFill 32 (residue 32 m)]) = leValue (residue 32 m) := by
    split
    next hempty => rw [List.length_eq_zero_iff.mp hempty]; rfl
    next => rw [blockSum_cons, leValue_zeroFill, blockSum_nil, Nat.add_zero]
  rw [gostDataBlocks_eq_append, ← hlast, blockSum, List.map_append, List.sum_append]
  rfl

/-- The context in which the whole blocks of the message `m` have been compressed, with what they made of the accumulators, and the
residue is pending (R169). -/
def GostCtx.afterMessage (c : GostCtx) (m : List Byte) (n sigma : Quad) : GostCtx :=
  { c with h := gostFold c.sbox c.iv (blocksOf 32 m), n := n, sigma := sigma, buf := residue 32 m }

/-- A message absorbed from the initial message state, if the counter has room for its bits: each whole block has counted
256 and added itself to the checksum. -/
theorem gostAbsorb_restart (c : GostCtx) (m : List Byte) (hbits : 8 * m.length < 2 ^ 256) :
    ∃ n sigma : Quad,
      n.value = 256 * (m.length / 32) ∧ sigma.value = blockSum (blocksOf 32 m) % 2 ^ 256 ∧
      c.restart.absorb m = .ok (c.afterMessage m n sigma) := by
  have hzero : Quad.zero.value = 0 := rfl
  have hroom : c.restart.n.value + 256 * (blocksOf 32 m).length < 2 ^ 256 := by
    rw [restart_n, hzero, blocksOf_length]
    omega
  obtain ⟨n, sigma, hn, hsigma, hfold⟩ := gostFullBlocks_of_fits _ c.restart (fun _ => blocksOf_block_length) hroom
  rw [restart_n, hzero, Nat.zero_add, blocksOf_length] at hn
  rw [restart_sigma, hzero, Nat.zero_add] at hsigma
  refine ⟨n, sigma, hn, hsigma, ?_⟩
  rw [gostAbsorb_eq_blocks m c.restart (by decide : 0 < 32), restart_buf, List.nil_append, hfold]
  rfl

/-- With the whole blocks compressed, counted and summed, what FINALIZE compresses after them makes the digest of the message. -/
theorem gostDigest_eq_fold_residue (sbox : SBox) (iv : Bytes32) (m : List Byte) {n sigma : Nat}
    (hn : n = 256 * (m.length / 32)) (hsigma : sigma = blockSum (blocksOf 32 m) % 2 ^ 256) :
    (gostFold sbox (gostFold sbox iv (blocksOf 32 m))
      ((if (residue 32 m).length = 0 then [] else [zeroFill 32 (residue 32 m)]) ++
        [leBytes 32 (n + 8 * (residue 32 m).length), leBytes 32 ((sigma + leValue (residue 32 m)) % 2 ^ 256)])).toList =
      gostDigest sbox iv m := by
  have hcount : n + 8 * (residue 32 m).length = 8 * m.length := by rw [residue_length]; omega
  rw [hcount, hsigma, Nat.mod_add_mod, ← blockSum_gostDataBlocks, ← gostFold_append, ← List.append_assoc,
    ← gostDataBlocks_eq_append, gostDigest]

/-- Settles O42: one ABSORB of all the bytes leaves the whole blocks compressed, counted and summed and the residue pending, and
FINALIZE treats the residue as the last data block. -/
theorem gost94DigestIgnoresChunking : Obligations.Gost94DigestIgnoresChunking := by
  intro chunks s hcfg hinit hbits
  obtain ⟨n, sigma, hn, hsigma, hctx⟩ := gostAbsorb_restart s.gost chunks.flatten hbits
  rw [← hinit] at hctx
  set c := s.gost.afterMessage chunks.flatten n sigma
  have habsorb : effect (absorbInstr .gost94 chunks.flatten) s = .ok (.gost c, []) := by
    simp only [absorbInstr, Header.instr, effect, hcfg, if_true, hctx, Except.map]
  have hpos : (residue 32 chunks.flatten).length < 32 := by rw [residue_length]; omega
  have hroom : n.value + 8 * (residue 32 chunks.flatten).length < 2 ^ 256 := by rw [hn, residue_length]; omega
  calc execAll (chunks.map .absorbGost94 ++ [.finalizeGost94]) s
    _ = exec .finalizeGost94 { s with gost := c } := (execAll_absorbs habsorb).trans (execAll_singleton _ _)
    _ = .next { s with gost := s.gost.restart, out := s.out ++ gostDigest s.gost.sbox s.gost.iv chunks.flatten } := by
      rw [← gostDigest_eq_fold_residue _ _ _ hn hsigma]
      exact finalizeGost94AppendsTheDigest { s with gost := c } hcfg hpos hroom
    _ = .next { s with out := s.out ++ gostDigest s.gost.sbox s.gost.iv chunks.flatten } := by
      rw [← hinit]

end Sys2Proof.Machine
end

section
/-! Proofs about 42_gost94.md: the substitution `Sub` and the cipher `Encrypt` (R151 to R154). -/

namespace Sys2Proof.Machine

/-! ### Words as eight nibbles -/

/-- Nibble `i` of a word, nibble 0 the least significant (R151). -/
def nibble (x : Word32) (i : Fin 8) : Nibble := x.extractLsb' (4 * i.val) 4

/-- The word with the nibbles `f`. -/
def ofNibbles (f : Fin 8 → Nibble) : Word32 := f 7 ++ f 6 ++ f 5 ++ f 4 ++ f 3 ++ f 2 ++ f 1 ++ f 0

/-- Nibble `k + 1` of a word with the nibble `lo` at its end is nibble `k` of the rest. -/
theorem extractLsb'_append_nibble {n : Nat} (hi : BitVec n) (lo : Nibble) (k : Nat) :
    (hi ++ lo).extractLsb' (4 * (k + 1)) 4 = hi.extractLsb' (4 * k) 4 :=
  BitVec.extractLsb'_append_eq_of_le (by omega)

theorem nibble_ofNibbles (f : Fin 8 → Nibble) (i : Fin 8) : nibble (ofNibbles f) i = f i := by
  have hlow {n : Nat} (hi : BitVec n) (lo : Nibble) : (hi ++ lo).extractLsb' 0 4 = lo := by
    rw [BitVec.extractLsb'_append_eq_of_add_le (by decide), BitVec.extractLsb'_eq_self]
  fin_cases i <;> simp only [nibble, ofNibbles, extractLsb'_append_nibble, Nat.mul_zero, hlow, BitVec.extractLsb'_eq_self] <;> rfl

/-- Bit `j` of a word is bit `j % 4` of its nibble `j / 4`. -/
theorem nibble_injective : Function.Injective nibble := by
  intro x y h
  apply BitVec.eq_of_getLsbD_eq
  intro j hj
  have hbit (z : Word32) : z.getLsbD j = (nibble z ⟨j / 4, by omega⟩).getLsbD (j % 4) := by
    have hlt : j % 4 < 4 := Nat.mod_lt j (by decide)
    rw [nibble, BitVec.getLsbD_extractLsb', Nat.div_add_mod, decide_eq_true hlt, Bool.true_and]
  rw [hbit, hbit, h]

/-! ### `Sub` -/

/-- One table of an S-box as a map of nibbles (R151). -/
def sboxTable (sbox : SBox) (i : Fin 8) (v : Nibble) : Nibble := sbox[i][v.toFin]

theorem nibble_gostSub (sbox : SBox) (x : Word32) (i : Fin 8) :
    nibble (gostSub sbox x) i = sboxTable sbox i (nibble x i) :=
  nibble_ofNibbles (subNibble sbox x) i

/-- `Sub` is the eight tables side by side on the eight nibbles. -/
theorem nibble_comp_gostSub (sbox : SBox) : nibble ∘ gostSub sbox = Pi.map (sboxTable sbox) ∘ nibble := by
  funext x i
  exact nibble_gostSub sbox x i

theorem nibble_bijective : Function.Bijective nibble :=
  ⟨nibble_injective, fun f => ⟨ofNibbles f, funext (nibble_ofNibbles f)⟩⟩

/-- A table is a bijection of nibbles when it is one from its 16 indices. -/
theorem sboxTable_bijective_iff (sbox : SBox) (i : Fin 8) :
    Function.Bijective (sboxTable sbox i) ↔ Function.Bijective fun k : Fin 16 => sbox[i][k] :=
  Function.Bijective.of_comp_iff (fun k : Fin 16 => sbox[i][k]) BitVec.equivFin.bijective

theorem gostSub_bijective_iff (sbox : SBox) :
    Function.Bijective (gostSub sbox) ↔ ∀ i : Fin 8, Function.Bijective fun k : Fin 16 => sbox[i][k] :=
  calc Function.Bijective (gostSub sbox)
    _ ↔ Function.Bijective (nibble ∘ gostSub sbox) := (Function.Bijective.of_comp_iff' nibble_bijective _).symm
    _ ↔ Function.Bijective (Pi.map (sboxTable sbox)) := by
      rw [nibble_comp_gostSub, Function.Bijective.of_comp_iff _ nibble_bijective]
    _ ↔ ∀ i : Fin 8, Function.Bijective (sboxTable sbox i) := by
      simp only [← Finite.injective_iff_bijective, Pi.map_injective]
    _ ↔ ∀ i : Fin 8, Function.Bijective fun k : Fin 16 => sbox[i][k] := forall_congr' (sboxTable_bijective_iff sbox)

/-- Settles O30, by what `Sub` does to each nibble. -/
theorem subActsNibbleByNibble : Obligations.SubActsNibbleByNibble :=
  fun sbox => ⟨nibble_gostSub sbox, gostSub_bijective_iff sbox⟩

/-! ### `KeyIndex` and `Encrypt` -/

/-- Settles O31, by evaluation of the 32 rounds. -/
theorem keyIndexSequence : Obligations.KeyIndexSequence := by
  unfold Obligations.KeyIndexSequence
  decide

/-- The rounds of a Feistel network lose nothing, whatever the round function: `a` is kept as the second half, and gives `b`
back. -/
theorem gostRounds_injective (sbox : SBox) (ks : List Word32) {a₁ b₁ a₂ b₂ : Word32}
    (h : gostRounds sbox ks a₁ b₁ = gostRounds sbox ks a₂ b₂) : a₁ = a₂ ∧ b₁ = b₂ := by
  induction ks generalizing a₁ b₁ a₂ b₂ with
  | nil => exact Prod.mk.inj h
  | cons k ks ih =>
    obtain ⟨hxor, rfl⟩ := ih h
    exact ⟨rfl, by simpa using hxor⟩

theorem toLe32_injective : Function.Injective toLe32 := Function.LeftInverse.injective le32_toLe32

/-- The two halves that `Encrypt` starts from hold the whole value (R153 step 2). -/
theorem eq_of_le32_halves {d₁ d₂ : List Byte} (h₁ : d₁.length = 8) (h₂ : d₂.length = 8)
    (hlow : le32 (slice d₁ 0 4) = le32 (slice d₂ 0 4)) (hhigh : le32 (slice d₁ 4 8) = le32 (slice d₂ 4 8)) : d₁ = d₂ := by
  have hpack (d : List Byte) (h : d.length = 8) : d = toLe32 (le32 (slice d 0 4)) ++ toLe32 (le32 (slice d 4 8)) := by
    have hlast : slice d 4 8 = d.drop 4 := List.take_of_length_le (by simp [h])
    rw [toLe32_le32 _ (slice_length d 0 4 (by omega)), toLe32_le32 _ (slice_length d 4 8 (by omega)), hlast]
    exact (List.take_append_drop 4 d).symm
  rw [hpack d₁ h₁, hpack d₂ h₂, hlow, hhigh]

/-- Settles O32: the packings and the rounds can each be undone. -/
theorem encryptIsInjectiveForEveryKey : Obligations.EncryptIsInjectiveForEveryKey := by
  intro sbox key d₁ d₂ h₁ h₂ h
  obtain ⟨hb, ha⟩ := List.append_inj h (by simp)
  obtain ⟨hlow, hhigh⟩ := gostRounds_injective sbox _ (Prod.ext (toLe32_injective ha) (toLe32_injective hb))
  exact eq_of_le32_halves h₁ h₂ hlow hhigh

end Sys2Proof.Machine
end

section
/-! Proofs about 42_gost94.md: the linear transforms A and P (R155, R156) and the mixing step Psi (R160). -/

namespace Sys2Proof.Machine

/-! ### Psi -/

/-- `Psi` moves each byte down two places (R160). -/
theorem gostPsi_getElem_of_lt (x : Bytes32) {i : Nat} (h : i < 30) : (gostPsi x)[i] = x[i + 2] := by
  simp [gostPsi, h, Nat.add_comm]

theorem gostPsi_getElem_30 (x : Bytes32) : (gostPsi x)[30] = x[0] ^^^ x[2] ^^^ x[4] ^^^ x[6] ^^^ x[24] ^^^ x[30] := by
  simp [gostPsi]

theorem gostPsi_getElem_31 (x : Bytes32) : (gostPsi x)[31] = x[1] ^^^ x[3] ^^^ x[5] ^^^ x[7] ^^^ x[25] ^^^ x[31] := by
  simp [gostPsi]

theorem xor32_getElem (x y : Bytes32) {i : Nat} (h : i < 32) : (xor32 x y)[i] = x[i] ^^^ y[i] := by
  simp [xor32]

/-- Arrays are equal when the bytes that `Psi` moves and the two that it computes are. -/
theorem bytes32_ext {x y : Bytes32} (hmoved : ∀ i, (h : i < 30) → x[i] = y[i]) (h30 : x[30] = y[30]) (h31 : x[31] = y[31]) :
    x = y := by
  refine Vector.ext fun i hi => ?_
  obtain hlt | rfl | rfl : i < 30 ∨ i = 30 ∨ i = 31 := by omega
  · exact hmoved i hlt
  · exact h30
  · exact h31

theorem gostPsi_xor32 (x y : Bytes32) : gostPsi (xor32 x y) = xor32 (gostPsi x) (gostPsi y) := by
  refine bytes32_ext (fun i hi => ?_) ?_ ?_
  · rw [xor32_getElem _ _ (by omega), gostPsi_getElem_of_lt _ hi, gostPsi_getElem_of_lt _ hi, gostPsi_getElem_of_lt _ hi,
      xor32_getElem]
  · simp only [xor32_getElem, gostPsi_getElem_30]
    ac_rfl
  · simp only [xor32_getElem, gostPsi_getElem_31]
    ac_rfl

/-- `Psi` undone: the moved bytes go back, and each of the two lost bytes is the computed byte with the moved ones cancelled. -/
def gostPsiInverse (y : Bytes32) : Bytes32 :=
  ⟨⟨[y[30] ^^^ y[0] ^^^ y[2] ^^^ y[4] ^^^ y[22] ^^^ y[28], y[31] ^^^ y[1] ^^^ y[3] ^^^ y[5] ^^^ y[23] ^^^ y[29]] ++
      y.toList.take 30⟩, by simp⟩

theorem gostPsiInverse_getElem_of_le (y : Bytes32) {i : Nat} (hlow : 2 ≤ i) (hi : i < 32) :
    (gostPsiInverse y)[i] = y[i - 2] := by
  obtain ⟨j, rfl⟩ := Nat.exists_eq_add_of_le' hlow
  simp [gostPsiInverse]

theorem gostPsiInverse_getElem_0 (y : Bytes32) :
    (gostPsiInverse y)[0] = y[30] ^^^ y[0] ^^^ y[2] ^^^ y[4] ^^^ y[22] ^^^ y[28] := rfl

theorem gostPsiInverse_getElem_1 (y : Bytes32) :
    (gostPsiInverse y)[1] = y[31] ^^^ y[1] ^^^ y[3] ^^^ y[5] ^^^ y[23] ^^^ y[29] := rfl

/-- What is added twice to a byte cancels. -/
theorem xor_window_cancel (a b c d e f : Byte) : (a ^^^ b ^^^ c ^^^ d ^^^ e ^^^ f) ^^^ b ^^^ c ^^^ d ^^^ e ^^^ f = a :=
  calc (a ^^^ b ^^^ c ^^^ d ^^^ e ^^^ f) ^^^ b ^^^ c ^^^ d ^^^ e ^^^ f
    _ = a ^^^ ((b ^^^ b) ^^^ (c ^^^ c) ^^^ (d ^^^ d) ^^^ (e ^^^ e) ^^^ (f ^^^ f)) := by ac_rfl
    _ = a := by simp only [BitVec.xor_self, BitVec.xor_zero]

theorem gostPsiInverse_gostPsi (x : Bytes32) : gostPsiInverse (gostPsi x) = x := by
  refine Vector.ext fun i hi => ?_
  obtain rfl | rfl | hlow : i = 0 ∨ i = 1 ∨ 2 ≤ i := by omega
  · simp only [gostPsiInverse_getElem_0, gostPsi_getElem_30, gostPsi_getElem_of_lt, Nat.reduceLT, Nat.reduceAdd,
      xor_window_cancel]
  · simp only [gostPsiInverse_getElem_1, gostPsi_getElem_31, gostPsi_getElem_of_lt, Nat.reduceLT, Nat.reduceAdd,
      xor_window_cancel]
  · rw [gostPsiInverse_getElem_of_le _ hlow hi, gostPsi_getElem_of_lt _ (by omega)]
    simp only [Nat.sub_add_cancel hlow]

theorem gostPsi_gostPsiInverse (y : Bytes32) : gostPsi (gostPsiInverse y) = y := by
  refine bytes32_ext (fun i hi => ?_) ?_ ?_
  · rw [gostPsi_getElem_of_lt _ hi, gostPsiInverse_getElem_of_le _ (by omega)]
    simp only [Nat.add_sub_cancel]
  · simp only [gostPsi_getElem_30, gostPsiInverse_getElem_0, gostPsiInverse_getElem_of_le, Nat.reduceLeDiff, Nat.reduceSub,
      xor_window_cancel]
  · simp only [gostPsi_getElem_31, gostPsiInverse_getElem_1, gostPsiInverse_getElem_of_le, Nat.reduceLeDiff, Nat.reduceSub,
      xor_window_cancel]

theorem gostPsi_bijective : Function.Bijective gostPsi :=
  Function.bijective_iff_has_inverse.mpr ⟨gostPsiInverse, gostPsiInverse_gostPsi, gostPsi_gostPsiInverse⟩

/-! ### A and P -/

theorem bytes32_getD (x : Bytes32) {i : Nat} (h : i < 32) : x.toList.getD i 0 = x[i] := by
  simp [h]

theorem gostA_getD (x : Bytes32) (i : Fin 32) :
    (gostA x).toList.getD i.val 0 =
      if i.val < 24 then x.toList.getD (i.val + 8) 0 else x.toList.getD (i.val - 24) 0 ^^^ x.toList.getD (i.val - 16) 0 := by
  rw [bytes32_getD _ i.isLt, gostA, Vector.getElem_ofFn]
  dsimp only
  split
  next hlow => rw [bytes32_getD x (by omega)]
  next hhigh => rw [bytes32_getD x (by omega), bytes32_getD x (by omega)]

theorem gostP_getD (y : Bytes32) (i : Fin 4) (k : Fin 8) :
    (gostP y).toList.getD (i.val + 4 * k.val) 0 = y.toList.getD (8 * i.val + k.val) 0 := by
  have hrow : (i.val + 4 * k.val) % 4 = i.val := by omega
  have hcol : (i.val + 4 * k.val) / 4 = k.val := by omega
  rw [bytes32_getD _ (by omega), bytes32_getD y (by omega), gostP, Vector.getElem_ofFn]
  simp only [hrow, hcol]

/-- Settles O33, by the bytes of each transform. -/
theorem transformsMoveTheBytesOfTheRules : Obligations.TransformsMoveTheBytesOfTheRules := by
  refine ⟨gostA_getD, gostP_getD, fun x i => ?_, fun x => ⟨gostPsi_getElem_30 x, gostPsi_getElem_31 x⟩, gostPsi_xor32,
    gostPsi_bijective⟩
  rw [bytes32_getD _ (by omega), bytes32_getD x (by omega), gostPsi_getElem_of_lt x i.isLt]

end Sys2Proof.Machine
end

section
/-! Proofs about 42_gost94.md: the exact 256-bit sum (R163), and the faults of the GOST94 commands (R165, R168 to R170). -/

namespace Sys2Proof.Machine

/-- Settles O34, by the sum of the words with their carries. -/
theorem add256IsExact : Obligations.Add256IsExact := by
  intro x y
  refine ⟨add256_value x y, ?_⟩
  rw [add256_carry]
  split <;> decide

/-! ### A command that raises a fault -/

/-- What a host sees of a command that raises the fault `f` (R245). -/
theorem next_of_raiseFault {i : Instr} {s : State} {f : FaultCode} (hfault : s.fault = 0)
    (h : exec i s = .next (raiseFault f s)) :
    ∃ t, exec i s = .next t ∧ t.fault = f.code ∧ t.out = s.out ∧ t.cmd = s.cmd ∧ t.cpos = s.cpos ∧ t.params = s.params :=
  ⟨_, h, raiseFault_of_no_fault f s hfault, rfl, rfl, rfl, rfl⟩

/-- Settles O37: one byte out of range fails the check of the 128 bytes (R168 step 1). -/
theorem malformedSBoxRaisesConfigMalformed : Obligations.MalformedSBoxRaisesConfigMalformed := by
  intro p s j hfault hj hbyte
  have hrange : ¬ sboxInRange p = true := fun h => absurd ((sboxInRange_iff p).mp h j hj) (by omega)
  exact next_of_raiseFault (f := .configMalformed) hfault (if_neg hrange)

/-- FINALIZE.GOST94 before any INIT.GOST94 (R170 step 1). -/
theorem exec_finalizeGost94_of_unconfigured {s : State} (h : s.gost.cfg = false) :
    exec .finalizeGost94 s = .next (raiseFault .unconfigured s) := by
  simp only [exec, execFinalizeGost94, h, Bool.false_eq_true, if_false]

/-- Settles O40: the GOST94 commands other than INIT are ABSORB and FINALIZE, and both check CFG first. -/
theorem unconfiguredGost94RaisesUnconfigured : Obligations.UnconfiguredGost94RaisesUnconfigured := by
  intro i s hfault hcfg hengine hop
  have hexec : exec i s = .next (raiseFault .unconfigured s) := by
    cases i with
    | absorbGost94 p => exact exec_absorbGost94_of_unconfigured hcfg
    | finalizeGost94 => exact exec_finalizeGost94_of_unconfigured hcfg
    | initGost94 p => exact absurd rfl hop
    | initSha1 | initSha3 | absorbSha1 | absorbSha3 | finalizeSha1 | finalizeSha3 => cases hengine
  exact next_of_raiseFault (f := .unconfigured) hfault hexec

/-! ### Overflow of the bit counter -/

theorem dataBlock_of_lenAdd_error {c : GostCtx} {r : Nat} {f : FaultCode} (blk : List Byte) (h : lenAdd c.n r = .error f) :
    c.dataBlock blk r = .error f := by
  rw [GostCtx.dataBlock, h]

/-- After a fault no block is compressed (R101). -/
theorem gostFullBlocks_error (blks : List (List Byte)) (f : FaultCode) :
    blks.foldl gostFullBlock (.error f) = .error f := by
  induction blks with
  | nil => rfl
  | cons blk blks ih => rw [List.foldl_cons, gostFullBlock_error, ih]

/-- Full blocks that the bit counter has no room for: one of them raises LEN_OVERFLOW (R165). -/
theorem gostFullBlocks_of_overflow (blks : List (List Byte)) (c : GostCtx)
    (hover : 2 ^ 256 ≤ c.n.value + 256 * blks.length) : blks.foldl gostFullBlock (.ok c) = .error .lenOverflow := by
  induction blks generalizing c with
  | nil => exact absurd (quad_value_lt c.n) (by simpa using hover)
  | cons blk blks ih =>
    rw [List.foldl_cons, gostFullBlock, gostCallback]
    by_cases hroom : c.n.value + 8 * 32 < 2 ^ 256
    · obtain ⟨n, hadd, hn⟩ := lenAdd_of_fits (r := 32) le_rfl hroom
      rw [dataBlock_of_lenAdd blk hadd]
      refine ih _ ?_
      rw [List.length_cons] at hover
      simp only [hn]
      omega
    · rw [dataBlock_of_lenAdd_error blk (lenAdd_of_overflow (r := 32) le_rfl (Nat.le_of_not_lt hroom)), gostFullBlocks_error]

theorem gostAbsorb_of_overflow {p : List Byte} {c : GostCtx} (hpos : c.pos < 32)
    (hover : 2 ^ 256 ≤ c.n.value + 256 * ((c.buf ++ p).length / 32)) : c.absorb p = .error .lenOverflow := by
  rw [gostAbsorb_eq_blocks p c hpos, gostFullBlocks_of_overflow _ c (by rwa [blocksOf_length]), gostRebuffer]

/-- An empty buffer cannot take the counter past its range, so the block that overflows it is a pending one. -/
theorem gostFlush_of_overflow {c : GostCtx} (hpos : c.pos < 32) (hover : 2 ^ 256 ≤ c.n.value + 8 * c.pos) :
    c.flush = .error .lenOverflow := by
  have hpending : c.buf ≠ [] := by
    intro hbuf
    rw [GostCtx.pos, hbuf, List.length_nil] at hover
    exact absurd (quad_value_lt c.n) (Nat.not_lt.mpr hover)
  rw [gostFlush_of_pending hpending,
    dataBlock_of_lenAdd_error _ (lenAdd_of_overflow (Nat.le_of_lt hpos) hover), gostRebuffer]

/-- ABSORB.GOST94 on a configured context whose blocks raise a fault (R169). -/
theorem exec_absorbGost94_of_error {p : List Byte} {s : State} {f : FaultCode} (hcfg : s.gost.cfg = true)
    (h : s.gost.absorb p = .error f) : exec (.absorbGost94 p) s = .next (raiseFault f s) := by
  simp only [exec, execAbsorbGost94, hcfg, h, if_true]

/-- FINALIZE.GOST94 on a configured context whose flush raises a fault (R170). -/
theorem exec_finalizeGost94_of_error {s : State} {f : FaultCode} (hcfg : s.gost.cfg = true)
    (h : s.gost.flush = .error f) : exec .finalizeGost94 s = .next (raiseFault f s) := by
  simp only [exec, execFinalizeGost94, hcfg, h, if_true]

/-- Settles O41: the block that has no room raises LEN_OVERFLOW, and nothing is done after it. -/
theorem overlongGost94RaisesLenOverflow : Obligations.OverlongGost94RaisesLenOverflow := by
  intro s hfault hcfg hpos
  refine ⟨fun p hover => ?_, fun hover => ?_⟩
  · exact next_of_raiseFault (f := .lenOverflow) hfault (exec_absorbGost94_of_error hcfg (gostAbsorb_of_overflow hpos hover))
  · exact next_of_raiseFault (f := .lenOverflow) hfault (exec_finalizeGost94_of_error hcfg (gostFlush_of_overflow hpos hover))

end Sys2Proof.Machine
end

section
/-! Proofs about 43_sha1.md: the message schedule (R192) and INIT.SHA1 (R196). -/

namespace Sys2Proof.Machine

/-! ### The schedule, oldest word first -/

/-- What R192 makes `W[t]` of the words before it. -/
def sha1Recurrence (ws : List Word32) (t : Nat) : Word32 :=
  (ws.getD (t - 3) 0 ^^^ ws.getD (t - 8) 0 ^^^ ws.getD (t - 14) 0 ^^^ ws.getD (t - 16) 0).rotateLeft 1

/-- From word 16 on, the words are those of R192. -/
def FollowsSha1Recurrence (ws : List Word32) : Prop :=
  ∀ t, 16 ≤ t → t < ws.length → ws.getD t 0 = sha1Recurrence ws t

/-- `W[t]` is made of words before it only. -/
theorem sha1Recurrence_append {ws : List Word32} {t : Nat} (new : List Word32) (h16 : 16 ≤ t) (ht : t ≤ ws.length) :
    sha1Recurrence (ws ++ new) t = sha1Recurrence ws t := by
  have hold (k : Nat) (hk : 0 < k) : (ws ++ new).getD (t - k) 0 = ws.getD (t - k) 0 :=
    List.getD_append ws new 0 (t - k) (by omega)
  simp only [sha1Recurrence, hold _ (Nat.succ_pos _)]

/-- One word of `sha1Extend`: its places 2, 7, 13, 15 from the newest are the words 3, 8, 14, 16 back. -/
theorem sha1Extend_succ_reverse (n : Nat) {ws : List Word32} (h16 : 16 ≤ ws.length) :
    sha1Extend (n + 1) ws.reverse = sha1Extend n (ws ++ [sha1Recurrence ws ws.length]).reverse := by
  have hback (k : Nat) (hk : k < 16) : ws.reverse.getD k 0 = ws.getD (ws.length - (k + 1)) 0 := by
    rw [List.getD_reverse k (by omega), Nat.sub_sub, Nat.add_comm]
  rw [sha1Extend, hback 2 (by decide), hback 7 (by decide), hback 13 (by decide), hback 15 (by decide), List.reverse_concat,
    sha1Recurrence]

theorem FollowsSha1Recurrence.concat {ws : List Word32} (h : FollowsSha1Recurrence ws) :
    FollowsSha1Recurrence (ws ++ [sha1Recurrence ws ws.length]) := by
  intro t h16 ht
  rw [List.length_append, List.length_singleton] at ht
  rw [sha1Recurrence_append _ h16 (by omega)]
  rcases Nat.lt_or_eq_of_le (Nat.le_of_lt_succ ht) with hold | rfl
  · rw [List.getD_append _ _ _ _ hold, h t h16 hold]
  · rw [List.getD_append_right _ _ _ _ le_rfl, Nat.sub_self, List.getD_cons_zero]

/-- `sha1Extend` puts `n` words behind the words it is given, and keeps to the recurrence. -/
theorem sha1Extend_reverse (n : Nat) {ws : List Word32} (h16 : 16 ≤ ws.length) (h : FollowsSha1Recurrence ws) :
    ∃ new, (sha1Extend n ws.reverse).reverse = ws ++ new ∧ new.length = n ∧ FollowsSha1Recurrence (ws ++ new) := by
  induction n generalizing ws with
  | zero => exact ⟨[], by rw [sha1Extend, List.reverse_reverse, List.append_nil], rfl, by rwa [List.append_nil]⟩
  | succ n ih =>
    rw [sha1Extend_succ_reverse n h16]
    have hlength : 16 ≤ (ws ++ [sha1Recurrence ws ws.length]).length := by
      rw [List.length_append]
      omega
    obtain ⟨new, hwords, hnew, hfollows⟩ := ih hlength h.concat
    rw [List.append_assoc] at hwords hfollows
    exact ⟨_, hwords, by rw [List.length_append, hnew, List.length_singleton, Nat.add_comm], hfollows⟩

@[simp] theorem sha1BlockWords_length (blk : List Byte) : (sha1BlockWords blk).length = 16 := by
  rw [sha1BlockWords, List.length_map, List.length_range]

theorem sha1BlockWords_getD (blk : List Byte) {t : Nat} (ht : t < 16) :
    (sha1BlockWords blk).getD t 0 = be32 (slice blk (4 * t) (4 * t + 4)) := by
  rw [List.getD_eq_getElem _ _ (by rwa [sha1BlockWords_length])]
  simp only [sha1BlockWords, List.getElem_map, List.getElem_range]

/-- The recurrence says nothing of the block's own 16 words. -/
theorem sha1BlockWords_follows (blk : List Byte) : FollowsSha1Recurrence (sha1BlockWords blk) := by
  intro t h16 ht
  rw [sha1BlockWords_length] at ht
  exact absurd ht (Nat.not_lt.mpr h16)

/-- Settles O18: the schedule is the block's 16 words and 64 words that the recurrence gives. -/
theorem sha1ScheduleFollowsTheRecurrence : Obligations.Sha1ScheduleFollowsTheRecurrence := by
  intro blk
  obtain ⟨new, hwords, hnew, hfollows⟩ :=
    sha1Extend_reverse 64 (sha1BlockWords_length blk).ge (sha1BlockWords_follows blk)
  have hschedule : sha1Schedule blk = sha1BlockWords blk ++ new := hwords
  have hlength : (sha1BlockWords blk ++ new).length = 80 := by rw [List.length_append, sha1BlockWords_length, hnew]
  rw [hschedule]
  refine ⟨hlength, fun t ht => ?_, fun t h16 ht => hfollows t h16 (by rwa [hlength])⟩
  rw [List.getD_append _ _ _ _ (by rwa [sha1BlockWords_length]), sha1BlockWords_getD blk ht]

/-! ### INIT.SHA1 -/

theorem exec_initSha1 (s : State) : exec .initSha1 s = .next { s with sha1 := Sha1Ctx.initial } := rfl

/-- Settles O19: the initial message state has the words of R191. -/
theorem initSha1RestoresTheInitialState : Obligations.InitSha1RestoresTheInitialState := by
  intro s
  rw [exec_initSha1, Sha1Ctx.initial, sha1Iv]

end Sys2Proof.Machine
end

section
/-! Proofs about 44_sha3_keccak.md: INIT.SHA3 (R213) and the turns of Squeeze (R216). -/

namespace Sys2Proof.Machine

/-! ### INIT.SHA3 -/

theorem exec_initSha3 (s : State) : exec .initSha3 s = .next { s with sha3 := Sha3Ctx.initial } := rfl

theorem zeroLanes_getElem (i : Fin 25) : zeroLanes[i] = 0 := Vector.getElem_replicate i.isLt

/-- Settles O26: the initial message state has the zero lanes of R213. -/
theorem initSha3ClearsTheLanes : Obligations.InitSha3ClearsTheLanes :=
  fun s => ⟨zeroLanes, zeroLanes_getElem, exec_initSha3 s⟩

/-! ### The turns of Squeeze -/

/-- The last turn. With no byte wanted there may be no turn at all. -/
theorem squeezeLoop_of_le (leaf : Lanes → Lanes) {rate fuel need : Nat} (hfuel : need ≤ fuel) (hlast : need ≤ rate) (a : Lanes) :
    squeezeLoop leaf rate fuel need a = a.bytes.take need := by
  cases fuel with
  | zero => rw [Nat.le_zero.mp hfuel, squeezeLoop, List.take_zero]
  | succ fuel => rw [squeezeLoop, if_pos hlast, List.take_take, Nat.min_eq_left hlast]

/-- A turn before the last. -/
theorem squeezeLoop_succ_of_lt (leaf : Lanes → Lanes) {rate need : Nat} (fuel : Nat) (hmore : rate < need) (a : Lanes) :
    squeezeLoop leaf rate (fuel + 1) need a = a.bytes.take rate ++ squeezeLoop leaf rate fuel (need - rate) (leaf a) := by
  rw [squeezeLoop, if_neg (Nat.not_le.mpr hmore)]

/-- Each turn gives at least one byte, so fuel beyond one turn for each wanted byte makes no difference. -/
theorem squeezeLoop_fuel_irrel (leaf : Lanes → Lanes) {rate fuel₁ fuel₂ need : Nat} (hpos : 0 < rate) (h₁ : need ≤ fuel₁)
    (h₂ : need ≤ fuel₂) (a : Lanes) : squeezeLoop leaf rate fuel₁ need a = squeezeLoop leaf rate fuel₂ need a := by
  induction fuel₁ generalizing fuel₂ need a with
  | zero => rw [squeezeLoop_of_le leaf h₁ (by omega), squeezeLoop_of_le leaf h₂ (by omega)]
  | succ fuel₁ ih =>
    by_cases hlast : need ≤ rate
    · rw [squeezeLoop_of_le leaf h₁ hlast, squeezeLoop_of_le leaf h₂ hlast]
    · cases fuel₂ with
      | zero => omega
      | succ fuel₂ =>
        rw [squeezeLoop_succ_of_lt leaf fuel₁ (by omega), squeezeLoop_succ_of_lt leaf fuel₂ (by omega),
          ih (fuel₂ := fuel₂) (by omega) (by omega)]

theorem squeeze_of_le (leaf : Lanes → Lanes) {rate d : Nat} (hlast : d ≤ rate) (a : Lanes) :
    squeeze leaf rate d a = a.bytes.take d :=
  squeezeLoop_of_le leaf le_rfl hlast a

theorem squeeze_of_lt (leaf : Lanes → Lanes) {rate d : Nat} (hpos : 0 < rate) (hmore : rate < d) (a : Lanes) :
    squeeze leaf rate d a = a.bytes.take rate ++ squeeze leaf rate (d - rate) (leaf a) := by
  obtain ⟨m, rfl⟩ : ∃ m, d = m + 1 := ⟨d - 1, by omega⟩
  rw [squeeze, squeezeLoop_succ_of_lt leaf m hmore, squeeze, squeezeLoop_fuel_irrel leaf hpos (by omega) le_rfl]

/-- Settles O25: a last turn takes the first bytes of the state; a turn before it leaves enough turns for the rest. -/
theorem squeezeGivesTheRateBytesThenPermutes : Obligations.SqueezeGivesTheRateBytesThenPermutes := by
  intro leaf rate d a hlow hhigh
  have hpos : 0 < rate := by omega
  exact ⟨squeeze_length leaf hpos (by omega) d a, fun hlast => squeeze_of_le leaf hlast a,
    fun hmore => squeeze_of_lt leaf hpos hmore a⟩

end Sys2Proof.Machine
end

section
/-! Proofs about 45_leaf_keccak_f1600.md: the lanes of the 5 by 5 array (R231) and of the five steps of a round (R232). -/

namespace Sys2Proof.Machine

/-! ### The lanes by column and row -/

theorem ofFn_toList_getD {n : Nat} (f : Fin n → Word64) {i : Nat} (h : i < n) : (Vector.ofFn f).toList.getD i 0 = f ⟨i, h⟩ := by
  simp [List.getD, h]

/-- Columns are counted modulo 5 (R231). -/
@[simp] theorem Lanes.at_mod (a : Lanes) (x y : Nat) : a.at (x % 5) y = a.at x y := by
  rw [Lanes.at, Lanes.at, Nat.mod_mod]

theorem lanesOf_at (f : Nat → Nat → Word64) {x y : Nat} (hx : x < 5) (hy : y < 5) : (lanesOf f).at x y = f x y := by
  have hcol : (x + 5 * y) % 5 = x := by omega
  have hrow : (x + 5 * y) / 5 = y := by omega
  rw [Lanes.at, Nat.mod_eq_of_lt hx, Nat.mod_eq_of_lt hy, lanesOf, ofFn_toList_getD _ (by omega), hcol, hrow]

/-! ### The five steps -/

/-- The XOR of a column's five lanes, `C[x]` in theta (R232). -/
def columnParity (a : Lanes) (x : Nat) : Word64 := a.at x 0 ^^^ a.at x 1 ^^^ a.at x 2 ^^^ a.at x 3 ^^^ a.at x 4

theorem keccakTheta_at (a : Lanes) {x y : Nat} (hx : x < 5) (hy : y < 5) :
    (keccakTheta a).at x y =
      a.at x y ^^^ (columnParity a ((x + 4) % 5) ^^^ (columnParity a ((x + 1) % 5)).rotateLeft 1) := by
  have hmod (i : Nat) : i % 5 < 5 := Nat.mod_lt i (by decide)
  simp only [keccakTheta, lanesOf_at _ hx hy, ofFn_toList_getD _ hx, ofFn_toList_getD _ (hmod _), columnParity]

/-- The model finds the lane that goes to a place; the rule says where a lane goes. -/
theorem keccakRhoPi_at (a : Lanes) {x y : Nat} (hx : x < 5) (hy : y < 5) :
    (keccakRhoPi a).at y ((2 * x + 3 * y) % 5) = (a.at x y).rotateLeft (keccakRho x y) := by
  have hsource : (y + 3 * ((2 * x + 3 * y) % 5)) % 5 = x := by omega
  rw [keccakRhoPi, lanesOf_at _ hy (Nat.mod_lt _ (by decide)), ← Lanes.at_mod, hsource]

theorem keccakChi_at (b : Lanes) {x y : Nat} (hx : x < 5) (hy : y < 5) :
    (keccakChi b).at x y = b.at x y ^^^ (~~~(b.at ((x + 1) % 5) y) &&& b.at ((x + 2) % 5) y) := by
  rw [keccakChi, lanesOf_at _ hx hy, Lanes.at_mod, Lanes.at_mod]

theorem keccakIota_at (rc : Word64) (a : Lanes) {x y : Nat} (hx : x < 5) (hy : y < 5) :
    (keccakIota rc a).at x y = if x = 0 ∧ y = 0 then a.at 0 0 ^^^ rc else a.at x y := by
  by_cases horigin : x = 0 ∧ y = 0
  · obtain ⟨rfl, rfl⟩ := horigin
    simp [keccakIota, Lanes.at, List.getD]
  · have hother : 0 ≠ x % 5 + 5 * (y % 5) := by omega
    simp only [if_neg horigin, keccakIota, Lanes.at, Vector.toList_set, List.getD_eq_getElem?_getD, List.getElem?_set_ne hother]

/-- Settles O24: one equation for each step, and a round is by definition their composition. -/
theorem keccakRoundFollowsTheFiveSteps : Obligations.KeccakRoundFollowsTheFiveSteps := by
  intro rc a x y hx hy
  exact ⟨keccakTheta_at a hx hy, keccakRhoPi_at a hx hy, keccakChi_at a hx hy, keccakIota_at rc a hx hy, rfl⟩

end Sys2Proof.Machine
end
